-- ==== Sys2Proof/Word.lean ====
section
/-! DEFINITION. The word types of the PowerWheel FFB core (spec/00_scope.md rule R8: `uN` is an unsigned N-bit
number, `sN` a two's-complement signed one). A stored field is its bits; an unsigned field is read with `toNat`,
a signed one with `toInt`. -/

namespace Sys2Proof

/-- A `u8` (R8): a byte of a report, a slot index, a small field of a record. -/
abbrev Byte := BitVec 8

/-- A 16-bit field of a record or of a report (R22 to R27): `u16` where the rule reads it unsigned, `s16` where
the rule reads it signed. -/
abbrev Half := BitVec 16

/-- An `s32` sample of a TICK transaction (R64). -/
abbrev Sample := BitVec 32

/-- A `u64` reading of the millisecond clock (R22, R166). -/
abbrev Stamp := BitVec 64

end Sys2Proof
end

