-- ==== Sys2Proof/Syntax.lean ====
section
/-! DEFINITION. The commands of the core as Lean terms: one constructor of `Instr` for each row of
spec/opcode_table.json, with the operands its layout names (spec/30_encoding.md R64 to R79); and beside them the
request a transaction arrives as (R59), the sample record of a tick (R64), the names of the effect types (R21) and
of the two output axes. -/

namespace Sys2Proof

/-- The twelve effect types of R21 by name, and `untyped` for the codes 0 and 13..255, which name no type. -/
inductive EffectType where
  | untyped
  | constant
  | ramp
  | square
  | sine
  | triangle
  | sawtoothDown
  | sawtoothUp
  | spring
  | damper
  | inertia
  | friction
  | custom
  deriving DecidableEq, Repr, Inhabited

/-- The two output axes (R64, R142): `axis0` is axis 0, `axis1` is axis 1. -/
inductive Axis where
  | axis0
  | axis1
  deriving DecidableEq, Repr, Inhabited

/-- The eight `s32` physical samples that a TICK carries for one output axis (R64). Each channel comes with the
maximum that the condition law divides it by. -/
structure SampleRecord where
  springPos : Sample
  springMax : Sample
  damperVel : Sample
  damperMax : Sample
  inertiaAcc : Sample
  inertiaMax : Sample
  frictionPos : Sample
  frictionMax : Sample
  deriving DecidableEq, Repr, Inhabited

/-- A request on the core's one request port (R59): a 3-bit kind and the operands of that kind. The operands that
a kind does not have are present on the port and are ignored: `report` is read by kind 0 only, `now` by kinds 0
and 4, the samples by kind 4 only. -/
structure Request where
  kind : BitVec 3
  report : Vector Byte 16
  now : Stamp
  samples0 : SampleRecord
  samples1 : SampleRecord
  deriving DecidableEq, Repr

/-- The commands of the core: one constructor per row of spec/opcode_table.json, in the table's order. Operands
are the fields that the row's layout names, in layout order; the clock operand `now` of a REPORT (R61) is an operand
of the two start commands, the only ones that read it. Signed fields are carried as their 16 or 32 bits. -/
inductive Instr where
  /-- SET_EFFECT (R67, R96). -/
  | setEffect (index effectType : Byte) (duration : Half) (gain enableAxis directionX directionY : Byte)
  /-- SET_ENVELOPE (R68, R97). -/
  | setEnvelope (index : Byte) (attackLevel fadeLevel attackTime fadeTime : Half)
  /-- SET_CONDITION (R69, R98). -/
  | setCondition (index blockOffset : Byte) (cpOffset positiveCoefficient negativeCoefficient : Half)
      (positiveSaturation negativeSaturation deadBand : Half)
  /-- SET_PERIODIC (R70, R99). -/
  | setPeriodic (index : Byte) (magnitude offset phase period : Half)
  /-- SET_CONSTANT (R71, R100). -/
  | setConstant (index : Byte) (magnitude : Half)
  /-- SET_RAMP (R72, R101). -/
  | setRamp (index : Byte) (startMagnitude endMagnitude : Half)
  /-- CUSTOM_7 (R73, R102). -/
  | custom7
  /-- CUSTOM_8 (R73, R103). -/
  | custom8
  /-- CUSTOM_14 (R73, R104). -/
  | custom14
  /-- EFFECT_START (R74, R105). -/
  | effectStart (index loopCount : Byte) (now : Stamp)
  /-- EFFECT_START_SOLO (R74, R106); its layout names the loop count, its meaning does not read it. -/
  | effectStartSolo (index loopCount : Byte) (now : Stamp)
  /-- EFFECT_STOP (R74, R107); its layout names the loop count, its meaning does not read it. -/
  | effectStop (index loopCount : Byte)
  /-- BLOCK_FREE_ALL (R75, R108): Block Free with index byte 255. -/
  | blockFreeAll
  /-- BLOCK_FREE (R75, R109): Block Free with any other index byte. -/
  | blockFree (index : Byte)
  /-- DC_ENABLE_ACTUATORS (R76, R110). -/
  | dcEnableActuators
  /-- DC_DISABLE_ACTUATORS (R76, R111). -/
  | dcDisableActuators
  /-- DC_STOP_ALL (R76, R112). -/
  | dcStopAll
  /-- DC_FREE_ALL (R76, R113). -/
  | dcFreeAll
  /-- DC_PAUSE (R76, R114). -/
  | dcPause
  /-- DC_CONTINUE (R76, R115). -/
  | dcContinue
  /-- DEVICE_GAIN (R77, R116). -/
  | deviceGain (gain : Byte)
  /-- IGNORED (R80, R117): a report that no other row admits, with the three bytes the decoder looked at. -/
  | ignored (tag byte1 byte2 : Byte)
  /-- CREATE (R62, R152). -/
  | create
  /-- GET_BLOCK_LOAD (R63, R153). -/
  | getBlockLoad
  /-- GET_POOL (R63, R154). -/
  | getPool
  /-- TICK (R64, R142). -/
  | tick (now : Stamp) (samples0 samples1 : SampleRecord)
  deriving DecidableEq, Repr

end Sys2Proof
end

