-- ==== Sys2Proof/Config.lean ====
section
/-! DEFINITION. The implementation parameters of spec/00_scope.md rule R7. The rows R7 fixes are numbers here; the
rows its "value" column calls OPEN are the fields of `Config`, which the operations take as an argument. The machine
runs with `Config.implementation`, an opaque constant with no body: a theorem about the machine holds whatever
values an implementation gives those rows (notes/assumptions/4.md). -/

namespace Sys2Proof

namespace Config

/-- `N`, the number of allocatable slots: valid slot indices are 1..N and the table holds N + 1 records (R7). -/
def slotCount : Nat := 14

/-- `GAIN_DIV`, the divisor of the total gain (R7, R149). -/
def gainDiv : Int := 10000

/-- `FORCE_OUT` (R), the half-width of the output range (R7, R150). -/
def forceOut : Int := 255

/-- `DURATION_INFINITE`, the "effectively infinite" duration (R7, R22). -/
def durationInfinite : Half := 0x7FFF

end Config

/-- `INERTIA_RULE`, with `INERTIA_ABS` inside it (R7, R139): what R139 leaves open of "a function from `(s, a, smp)` to
an integer", once it keeps what every rule must keep. `Machine.inertiaForce` is that function (notes/assumptions/6.md). -/
structure InertiaRule where
  /-- Whether "the sign of the acceleration" is that of `inertiaAcc / inertiaMax` or that of `inertiaAcc`. -/
  normalised : Axis → Bool
  /-- The "position proxy", which no source names: any quantity formed from the axis's samples. -/
  proxy : Axis → SampleRecord → Int
  /-- The sign given to the condition-law result, for the signs of the acceleration and of the proxy; 0 silences it. -/
  sign : Axis → SignType → SignType → SignType
  /-- `INERTIA_ABS`: whether the law is applied to the absolute value, for the same two signs. -/
  absolute : Axis → SignType → SignType → Bool
  deriving Inhabited

/-- The OPEN rows of R7's table. Each range R7 gives is built into the field's type, so that every value of `Config`
is a legal implementation and every legal implementation is a value of it. -/
structure Config where
  /-- `FOOTPRINT` less one: R7 asks for `1 ≤ FOOTPRINT` and `14 × FOOTPRINT ≤ 65535`, that is 1..4681. -/
  footprintLessOne : Fin 4681
  /-- `G[t]`, the fixed gain of an effect type, 0..255; only the types 1..11 are ever asked for. -/
  typeGain : EffectType → Byte
  /-- `TOTAL_GAIN`, 0..255. -/
  totalGain : Byte
  /-- `FORCE_WIDE` (W) less one: R7 asks for an integer W ≥ 1. -/
  forceWideLessOne : Nat
  /-- `SIN`, the sine unit (R128; notes/assumptions/5.md says why rationals suffice). -/
  sin : Rat → Rat
  /-- `PI`, the value of π the sine unit is fed (R128). -/
  pi : Rat
  /-- `INERTIA_RULE` and `INERTIA_ABS` (R139). -/
  inertia : InertiaRule
  /-- `BLOCK_LOAD_REPORT_ID`, first byte of the block load record (R78). -/
  blockLoadReportId : Byte
  /-- `POOL_REPORT_ID`, first byte of the pool record (R79). -/
  poolReportId : Byte
  /-- `MEM_MGMT`, the `memoryManagement` byte of the pool record (R79). -/
  memMgmt : Byte
  deriving Inhabited

namespace Config

/-- `FOOTPRINT`, "one effect's storage footprint": the amount the pool counter moves by (R7). -/
def footprint (c : Config) : Nat := c.footprintLessOne.val + 1

/-- `POOL_FULL = N × FOOTPRINT`, the pool counter's full capacity (R7). -/
def poolFull (c : Config) : Nat := slotCount * c.footprint

/-- `FORCE_WIDE` (W), the half-width of the wide signed range that the rescale maps from (R7). -/
def forceWide (c : Config) : Int := (c.forceWideLessOne : Int) + 1

/-- The values that the implementation at hand gives to R7's OPEN rows: nothing is known of them. -/
opaque implementation : Config

end Config

end Sys2Proof
end

