-- ==== Sys2Proof/Machine/Slot.lean ====
section
/-! DEFINITION. The effect record (spec/10_state.md R20 to R29). -/

namespace Sys2Proof.Machine

/-- One condition block of a record (R27): three signed and three unsigned 16-bit fields. -/
structure ConditionBlock where
  cpOffset : Half
  positiveCoefficient : Half
  negativeCoefficient : Half
  positiveSaturation : Half
  negativeSaturation : Half
  deadBand : Half
  deriving DecidableEq, Repr

/-- A condition block whose every field is 0 (R29). -/
def ConditionBlock.zero : ConditionBlock := ⟨0, 0, 0, 0, 0, 0⟩

/-- An effect record (R20 to R28). -/
structure Slot where
  /-- Bit 0 allocated, bit 1 playing; bits 7..2 are never set (R20). -/
  state : Byte
  /-- The code of the effect's type (R21). -/
  effectType : Byte
  /-- `u16` (R22). -/
  duration : Half
  /-- `u16` (R22). -/
  elapsedTime : Half
  /-- `u64`, the clock when the effect last started (R22). -/
  startTime : Stamp
  gain : Byte
  /-- Stored, read by no rule (R23). -/
  enableAxis : Byte
  /-- Stored, read by no rule (R23). -/
  directionX : Byte
  /-- Stored, read by no rule (R23). -/
  directionY : Byte
  attackLevel : Half
  fadeLevel : Half
  attackTime : Half
  fadeTime : Half
  /-- `s16` (R25). -/
  magnitude : Half
  /-- `s16` (R25). -/
  offset : Half
  phase : Half
  period : Half
  /-- `s16` (R26). -/
  startMagnitude : Half
  /-- `s16` (R26). -/
  endMagnitude : Half
  /-- `cond[0]` (R27). -/
  cond0 : ConditionBlock
  /-- `cond[1]` (R27). -/
  cond1 : ConditionBlock
  /-- Accepted Set Condition reports since the allocation, modulo 256 (R28). -/
  conditionBlocksCount : Byte
  deriving DecidableEq, Repr

/-- `ZERO`, the record whose every field, `state` included, is 0 (R29). -/
def Slot.zero : Slot where
  state := 0
  effectType := 0
  duration := 0
  elapsedTime := 0
  startTime := 0
  gain := 0
  enableAxis := 0
  directionX := 0
  directionY := 0
  attackLevel := 0
  fadeLevel := 0
  attackTime := 0
  fadeTime := 0
  magnitude := 0
  offset := 0
  phase := 0
  period := 0
  startMagnitude := 0
  endMagnitude := 0
  cond0 := .zero
  cond1 := .zero
  conditionBlocksCount := 0

end Sys2Proof.Machine
end

