-- ==== Sys2Proof/Machine/State.lean ====
section
/-! DEFINITION. The state of the core as plain data (spec/10_state.md): the effect table, the device-wide registers,
and the two ports and the reset input as the model's step sees them; the reasons a step can stop; and the state right
after reset (R43, R169). -/

namespace Sys2Proof.Machine

/-- The outcome of the latest allocation request (R34). -/
structure BlockLoad where
  index : Byte
  status : Byte
  deriving DecidableEq, Repr

/-- A response of the core (R59): exactly one answers each request. -/
inductive Response where
  /-- The empty acknowledgement of a REPORT, and the empty response of a reserved kind (R59, R60). -/
  | empty
  /-- The response of CREATE: index, status, `ramPoolAvailable` (R152). -/
  | created (index status : Byte) (ramPoolAvailable : Half)
  /-- The five bytes of a feature read (R78, R79). -/
  | feature (bytes : Vector Byte 5)
  /-- The two forces of a tick, each carried as `s16` (R64, R142). -/
  | forces (force0 force1 : Half)
  deriving DecidableEq, Repr

/-- The reset input as the next step sees it (R169): not asserted; asserted while no transaction is in progress;
asserted while the transaction that the core would accept next is in progress. -/
inductive ResetInput where
  | released
  | betweenTransactions
  | duringTransaction
  deriving DecidableEq, Repr

/-- The machine's state. The first six fields are the architectural state of R17; the last three are the model's own
view of the ports (notes/assumptions/1.md, 2.md, 3.md). -/
structure State where
  /-- `slot[0]` to `slot[14]` (R19). -/
  slots : Vector Slot 15
  /-- The allocator's cached next free cursor, 1..15 (R30). -/
  cursor : Byte
  /-- The pool counter (R31). -/
  pool : Half
  /-- The pause flag (R32). -/
  paused : Bool
  /-- The device gain: stored, read by no rule (R33). -/
  deviceGain : Byte
  /-- The outcome of the latest CREATE (R34). -/
  blockLoad : BlockLoad
  /-- The requests that the environment has presented and the core has not accepted, in arrival order. -/
  pending : List Request
  /-- The reset input. -/
  resetInput : ResetInput
  /-- What the latest step put on the response port; nothing where that step answered no request. -/
  response : Option Response
  deriving DecidableEq, Repr

/-- Reasons to stop with a fault: NONE. R156: "The core raises no exception, takes no trap and has no fault state."
No one raises a fault, so the type has no constructor. -/
inductive Fault where
  deriving DecidableEq, Repr

/-- Reasons to refuse a command. -/
inductive Refusal where
  /-- Raised by `exec` alone, for a row of the opcode table that the model gives no meaning; no row is such a one.
  Safe: the machine stops where the core would go on. -/
  | notModelled (mnemonic : String)
  deriving DecidableEq, Repr

/-- The outcome of a meaning or of a step. -/
abbrev Result := Host.Outcome State Fault Refusal

/-- The state right after reset for an implementation with the parameters `c`: every field of every record 0,
`cursor` 1, `pool` at its full capacity, everything else 0 (R43, R169). -/
def State.resetOf (c : Config) : State where
  slots := Vector.replicate 15 Slot.zero
  cursor := 1
  pool := BitVec.ofNat 16 c.poolFull
  paused := false
  deviceGain := 0
  blockLoad := ⟨0, 0⟩
  pending := []
  resetInput := .released
  response := none

/-- The machine right after reset (R169). -/
def State.reset : State := State.resetOf Config.implementation

end Sys2Proof.Machine
end

