-- ==== Sys2Proof/Machine/Arith.lean ====
section
/-! DEFINITION. The arithmetic primitives of spec/00_scope.md: truncating division (R10), the conversions from
rationals and the clamp (R11), the wrapping stores (R12), and the reading of a 16-bit field as an integer (R8). All
other arithmetic is that of `Int` and `Rat`, which neither wraps nor rounds (R9). -/

namespace Sys2Proof.Machine

/-- `tdiv(a, b)`: the quotient truncated toward zero, for `b ≠ 0` (R10). -/
def tdiv (a b : Int) : Int := Int.tdiv a b

/-- `trunc(q)`: the integer part of `q`, toward zero (R11). -/
def trunc (q : Rat) : Int := Int.tdiv q.num q.den

/-- `round(q)`: the nearest integer, ties away from zero (R11). -/
def roundHalfAway (q : Rat) : Int := if 0 ≤ q then (q + 1 / 2).floor else -(-q + 1 / 2).floor

/-- `clamp(v, lo, hi)` (R11). -/
def clamp (v lo hi : Int) : Int := if v < lo then lo else if hi < v then hi else v

/-- The sign of a number: -1, 0 or 1. -/
def signOf (v : Int) : SignType := if v < 0 then -1 else if 0 < v then 1 else 0

/-- A 16-bit field read as `u16` (R8). -/
def unsigned (v : Half) : Int := (v.toNat : Int)

/-- A 16-bit field read as `s16`, `sext_16` (R8). -/
def signed (v : Half) : Int := v.toInt

/-- `low16(v) = v mod 2^16` of a 64-bit difference (R12, R148). -/
def low16 (v : Stamp) : Half := v.setWidth 16

/-- The duration multiply of the start operation, kept modulo `2^16` (R12, R105). -/
def durationTimes (duration : Half) (loopCount : Byte) : Half :=
  BitVec.ofNat 16 (duration.toNat * loopCount.toNat)

/-- The elapsed-time update `((now − startTime) mod 2^64) mod 2^16` (R12, R148). -/
def elapsedSince (now startTime : Stamp) : Half := low16 (now - startTime)

/-- The pool counter after a debit of one footprint, modulo `2^16` (R12, R87). -/
def poolDebit (c : Config) (pool : Half) : Half := pool - BitVec.ofNat 16 c.footprint

/-- The pool counter after a credit of one footprint, modulo `2^16` (R12, R91). -/
def poolCredit (c : Config) (pool : Half) : Half := pool + BitVec.ofNat 16 c.footprint

/-- The increment of `conditionBlocksCount`, modulo `2^8` (R12, R98). -/
def countAccepted (count : Byte) : Byte := count + 1

/-- A force as the `s16` that carries it (R64). -/
def forceWord (f : Int) : Half := BitVec.ofInt 16 f

end Sys2Proof.Machine
end

