-- ==== Sys2Proof/WellFormed.lean ====
section
/-! DEFINITION. Which terms of `Instr` stand for a command of spec/30_encoding.md rule R80. Two rows of the map
bound their operands: BLOCK_FREE is tag 11 with an index byte other than 255, and IGNORED is what no earlier row
admits. No other operand is bounded: R66 stores a field as assembled, and an index or a block offset outside its
range is a legal report that does nothing (R46, R69). -/

namespace Sys2Proof

/-- The index byte that makes a Block Free report free all slots (R7, R75). -/
def freeAllIndex : Byte := 255

/-- R80's "anything else", decided on the first three bytes of a report: `b[0]` in 0, 9, 15..255; or tag 10 with
`b[2]` in 0, 4..255; or tag 12 with `b[1]` in 0, 7..255. -/
def selectsNoRow (tag byte1 byte2 : Byte) : Bool :=
  tag == 0 || tag == 9 || decide (15 ≤ tag.toNat)
    || (tag == 10 && (byte2 == 0 || decide (4 ≤ byte2.toNat)))
    || (tag == 12 && (byte1 == 0 || decide (7 ≤ byte1.toNat)))

/-- The terms that stand for a command of R80's map or for a transaction kind of R59. -/
def Instr.wellFormed : Instr → Bool
  | .setEffect .. => true
  | .setEnvelope .. => true
  | .setCondition .. => true
  | .setPeriodic .. => true
  | .setConstant .. => true
  | .setRamp .. => true
  | .custom7 => true
  | .custom8 => true
  | .custom14 => true
  | .effectStart .. => true
  | .effectStartSolo .. => true
  | .effectStop .. => true
  | .blockFreeAll => true
  | .blockFree index => index != freeAllIndex
  | .dcEnableActuators => true
  | .dcDisableActuators => true
  | .dcStopAll => true
  | .dcFreeAll => true
  | .dcPause => true
  | .dcContinue => true
  | .deviceGain _ => true
  | .ignored tag byte1 byte2 => selectsNoRow tag byte1 byte2
  | .create => true
  | .getBlockLoad => true
  | .getPool => true
  | .tick .. => true

end Sys2Proof
end

