-- ==== Sys2Proof/Decode.lean ====
section
/-! DEFINITION. From requests to commands and back (spec/30_encoding.md): the assembly of report fields (R66), the
decoder of R80's command map and of R59's transaction kinds, the encoder written from the same layouts (R67 to R77),
the opcode table as R85 describes it, the textual pseudo-commands of R84, and the reading of a request from the bits
of one number that the fixed name `decodeTableWord` asks for. -/

namespace Sys2Proof

/-! ## Bytes and fields -/

/-- `le16(lo, hi)`: the 16-bit field whose low byte comes first (R8, R49, R66). -/
def le16 (lo hi : Byte) : Half := hi ++ lo

/-- Bits 7..0 of a 16-bit field: the byte at the lower offset (R49). -/
def lowByte (v : Half) : Byte := v.extractLsb' 0 8

/-- Bits 15..8 of a 16-bit field: the byte at the higher offset (R49). -/
def highByte (v : Half) : Byte := v.extractLsb' 8 8

/-! ## The decoder -/

/-- What a request can be turned down for: its transaction kind names no row of the table (R59's kinds 5, 6, 7).
The core still answers such a request (R60). -/
inductive DecodeError where
  | reservedKind (kind : BitVec 3)
  deriving DecidableEq, Repr

/-- The command of a REPORT (R80): the rows of the command map are tried from the top and the first that matches
wins; a report that matches no row is IGNORED. The fields are those of the row's layout (R67 to R77), and bytes that
the layout does not name are dropped (R61). -/
def decodeReport (b : Vector Byte 16) (now : Stamp) : Instr :=
  if b[0] = 1 then .setEffect b[1] b[2] (le16 b[3] b[4]) b[5] b[6] b[7] b[8]
  else if b[0] = 2 then
    .setEnvelope b[1] (le16 b[2] b[3]) (le16 b[4] b[5]) (le16 b[6] b[7]) (le16 b[8] b[9])
  else if b[0] = 3 then
    .setCondition b[1] b[2] (le16 b[3] b[4]) (le16 b[5] b[6]) (le16 b[7] b[8]) (le16 b[9] b[10]) (le16 b[11] b[12])
      (le16 b[13] b[14])
  else if b[0] = 4 then
    .setPeriodic b[1] (le16 b[2] b[3]) (le16 b[4] b[5]) (le16 b[6] b[7]) (le16 b[8] b[9])
  else if b[0] = 5 then .setConstant b[1] (le16 b[2] b[3])
  else if b[0] = 6 then .setRamp b[1] (le16 b[2] b[3]) (le16 b[4] b[5])
  else if b[0] = 7 then .custom7
  else if b[0] = 8 then .custom8
  else if b[0] = 14 then .custom14
  else if b[0] = 10 ∧ b[2] = 1 then .effectStart b[1] b[3] now
  else if b[0] = 10 ∧ b[2] = 2 then .effectStartSolo b[1] b[3] now
  else if b[0] = 10 ∧ b[2] = 3 then .effectStop b[1] b[3]
  else if b[0] = 11 ∧ b[1] = freeAllIndex then .blockFreeAll
  else if b[0] = 11 then .blockFree b[1]
  else if b[0] = 12 ∧ b[1] = 1 then .dcEnableActuators
  else if b[0] = 12 ∧ b[1] = 2 then .dcDisableActuators
  else if b[0] = 12 ∧ b[1] = 3 then .dcStopAll
  else if b[0] = 12 ∧ b[1] = 4 then .dcFreeAll
  else if b[0] = 12 ∧ b[1] = 5 then .dcPause
  else if b[0] = 12 ∧ b[1] = 6 then .dcContinue
  else if b[0] = 13 then .deviceGain b[1]
  else .ignored b[0] b[1] b[2]

/-- The command of a request, by its transaction kind (R59). Total: kinds 5, 6 and 7 are turned down by name. -/
def decode (r : Request) : Except DecodeError Instr :=
  if r.kind = 0 then .ok (decodeReport r.report r.now)
  else if r.kind = 1 then .ok .create
  else if r.kind = 2 then .ok .getBlockLoad
  else if r.kind = 3 then .ok .getPool
  else if r.kind = 4 then .ok (.tick r.now r.samples0 r.samples1)
  else .error (.reservedKind r.kind)

/-- How many leading bytes of a report its tag's layout names (R67 to R77); a report of any other tag is read no further
than its tag (R117). -/
def layoutLength (tag : Byte) : Nat :=
  if tag = 1 then 9
  else if tag = 2 then 10
  else if tag = 3 then 15
  else if tag = 4 then 10
  else if tag = 5 then 4
  else if tag = 6 then 6
  else if tag = 10 then 4
  else if tag = 11 then 2
  else if tag = 12 then 2
  else if tag = 13 then 2
  else 1

/-! ## The encoder -/

/-- Eight zero samples: what a request that carries no samples shows on those operands. -/
def noSamples : SampleRecord := ⟨0, 0, 0, 0, 0, 0, 0, 0⟩

/-- Sixteen zero bytes: what a request that carries no report shows on that operand. -/
def noReport : Vector Byte 16 := #v[0, 0, 0, 0, 0, 0, 0, 0, 0, 0, 0, 0, 0, 0, 0, 0]

/-- A REPORT request (kind 0, R59) of the given 16 bytes at the given time. -/
def reportRequest (b : Vector Byte 16) (now : Stamp) : Request :=
  { kind := 0, report := b, now := now, samples0 := noSamples, samples1 := noSamples }

/-- A request of a kind that has no operands (R59). -/
def bareRequest (kind : BitVec 3) : Request :=
  { kind := kind, report := noReport, now := 0, samples0 := noSamples, samples1 := noSamples }

/-- The bytes of an Effect Operation (R74). -/
def effectOpBytes (index operation loopCount : Byte) : Vector Byte 16 :=
  #v[10, index, operation, loopCount, 0, 0, 0, 0, 0, 0, 0, 0, 0, 0, 0, 0]

/-- The bytes of a Block Free (R75). -/
def blockFreeBytes (index : Byte) : Vector Byte 16 :=
  #v[11, index, 0, 0, 0, 0, 0, 0, 0, 0, 0, 0, 0, 0, 0, 0]

/-- The bytes of a Device Control (R76). -/
def deviceControlBytes (control : Byte) : Vector Byte 16 :=
  #v[12, control, 0, 0, 0, 0, 0, 0, 0, 0, 0, 0, 0, 0, 0, 0]

/-- The bytes of a report of which only the tag is read (R73). -/
def tagBytes (tag : Byte) : Vector Byte 16 :=
  #v[tag, 0, 0, 0, 0, 0, 0, 0, 0, 0, 0, 0, 0, 0, 0, 0]

/-- The request that stands for a command, from the layouts R67 to R77 and the kinds of R59. A byte that the layout
does not name is 0, and so is the clock operand of a report that does not read it (R83: it may be left off). -/
def encode : Instr → Request
  | .setEffect index effectType duration gain enableAxis directionX directionY =>
    reportRequest #v[1, index, effectType, lowByte duration, highByte duration, gain, enableAxis, directionX,
      directionY, 0, 0, 0, 0, 0, 0, 0] 0
  | .setEnvelope index attackLevel fadeLevel attackTime fadeTime =>
    reportRequest #v[2, index, lowByte attackLevel, highByte attackLevel, lowByte fadeLevel, highByte fadeLevel,
      lowByte attackTime, highByte attackTime, lowByte fadeTime, highByte fadeTime, 0, 0, 0, 0, 0, 0] 0
  | .setCondition index blockOffset cpOffset positiveCoefficient negativeCoefficient positiveSaturation
      negativeSaturation deadBand =>
    reportRequest #v[3, index, blockOffset, lowByte cpOffset, highByte cpOffset, lowByte positiveCoefficient,
      highByte positiveCoefficient, lowByte negativeCoefficient, highByte negativeCoefficient,
      lowByte positiveSaturation, highByte positiveSaturation, lowByte negativeSaturation,
      highByte negativeSaturation, lowByte deadBand, highByte deadBand, 0] 0
  | .setPeriodic index magnitude offset phase period =>
    reportRequest #v[4, index, lowByte magnitude, highByte magnitude, lowByte offset, highByte offset,
      lowByte phase, highByte phase, lowByte period, highByte period, 0, 0, 0, 0, 0, 0] 0
  | .setConstant index magnitude =>
    reportRequest #v[5, index, lowByte magnitude, highByte magnitude, 0, 0, 0, 0, 0, 0, 0, 0, 0, 0, 0, 0] 0
  | .setRamp index startMagnitude endMagnitude =>
    reportRequest #v[6, index, lowByte startMagnitude, highByte startMagnitude, lowByte endMagnitude,
      highByte endMagnitude, 0, 0, 0, 0, 0, 0, 0, 0, 0, 0] 0
  | .custom7 => reportRequest (tagBytes 7) 0
  | .custom8 => reportRequest (tagBytes 8) 0
  | .custom14 => reportRequest (tagBytes 14) 0
  | .effectStart index loopCount now => reportRequest (effectOpBytes index 1 loopCount) now
  | .effectStartSolo index loopCount now => reportRequest (effectOpBytes index 2 loopCount) now
  | .effectStop index loopCount => reportRequest (effectOpBytes index 3 loopCount) 0
  | .blockFreeAll => reportRequest (blockFreeBytes freeAllIndex) 0
  | .blockFree index => reportRequest (blockFreeBytes index) 0
  | .dcEnableActuators => reportRequest (deviceControlBytes 1) 0
  | .dcDisableActuators => reportRequest (deviceControlBytes 2) 0
  | .dcStopAll => reportRequest (deviceControlBytes 3) 0
  | .dcFreeAll => reportRequest (deviceControlBytes 4) 0
  | .dcPause => reportRequest (deviceControlBytes 5) 0
  | .dcContinue => reportRequest (deviceControlBytes 6) 0
  | .deviceGain gain => reportRequest #v[13, gain, 0, 0, 0, 0, 0, 0, 0, 0, 0, 0, 0, 0, 0, 0] 0
  | .ignored tag byte1 byte2 => reportRequest #v[tag, byte1, byte2, 0, 0, 0, 0, 0, 0, 0, 0, 0, 0, 0, 0, 0] 0
  | .create => bareRequest 1
  | .getBlockLoad => bareRequest 2
  | .getPool => bareRequest 3
  | .tick now samples0 samples1 =>
    { kind := 4, report := noReport, now := now, samples0 := samples0, samples1 := samples1 }

/-! ## The opcode table -/

/-- The 16 bytes written as 32 hexadecimal digits, two per byte, `b[0]` leftmost (R83, R85). -/
def bytesOfHex (hex : Nat) : Vector Byte 16 :=
  #v[BitVec.ofNat 8 (hex >>> 120), BitVec.ofNat 8 (hex >>> 112), BitVec.ofNat 8 (hex >>> 104),
    BitVec.ofNat 8 (hex >>> 96), BitVec.ofNat 8 (hex >>> 88), BitVec.ofNat 8 (hex >>> 80),
    BitVec.ofNat 8 (hex >>> 72), BitVec.ofNat 8 (hex >>> 64), BitVec.ofNat 8 (hex >>> 56),
    BitVec.ofNat 8 (hex >>> 48), BitVec.ofNat 8 (hex >>> 40), BitVec.ofNat 8 (hex >>> 32),
    BitVec.ofNat 8 (hex >>> 24), BitVec.ofNat 8 (hex >>> 16), BitVec.ofNat 8 (hex >>> 8), BitVec.ofNat 8 hex]

/-- A REPORT row of spec/opcode_table.json (R85): its mnemonic and its two strings of hexadecimal digits. -/
structure OpcodeRow where
  mnemonic : String
  pattern : Nat
  mask : Nat
  deriving DecidableEq, Repr

/-- A report `b` matches a row when `(b AND mask) = match` bytewise (R85). -/
def OpcodeRow.admits (row : OpcodeRow) (b : Vector Byte 16) : Bool :=
  (List.range 16).all fun k =>
    (b[k]?.getD 0 &&& (bytesOfHex row.mask)[k]?.getD 0) == (bytesOfHex row.pattern)[k]?.getD 0

/-- The REPORT rows of spec/opcode_table.json, in priority order (R85). -/
def opcodeTable : List OpcodeRow :=
  [⟨"SET_EFFECT", 0x01000000000000000000000000000000, 0xFF000000000000000000000000000000⟩,
   ⟨"SET_ENVELOPE", 0x02000000000000000000000000000000, 0xFF000000000000000000000000000000⟩,
   ⟨"SET_CONDITION", 0x03000000000000000000000000000000, 0xFF000000000000000000000000000000⟩,
   ⟨"SET_PERIODIC", 0x04000000000000000000000000000000, 0xFF000000000000000000000000000000⟩,
   ⟨"SET_CONSTANT", 0x05000000000000000000000000000000, 0xFF000000000000000000000000000000⟩,
   ⟨"SET_RAMP", 0x06000000000000000000000000000000, 0xFF000000000000000000000000000000⟩,
   ⟨"CUSTOM_7", 0x07000000000000000000000000000000, 0xFF000000000000000000000000000000⟩,
   ⟨"CUSTOM_8", 0x08000000000000000000000000000000, 0xFF000000000000000000000000000000⟩,
   ⟨"CUSTOM_14", 0x0E000000000000000000000000000000, 0xFF000000000000000000000000000000⟩,
   ⟨"EFFECT_START", 0x0A000100000000000000000000000000, 0xFF00FF00000000000000000000000000⟩,
   ⟨"EFFECT_START_SOLO", 0x0A000200000000000000000000000000, 0xFF00FF00000000000000000000000000⟩,
   ⟨"EFFECT_STOP", 0x0A000300000000000000000000000000, 0xFF00FF00000000000000000000000000⟩,
   ⟨"BLOCK_FREE_ALL", 0x0BFF0000000000000000000000000000, 0xFFFF0000000000000000000000000000⟩,
   ⟨"BLOCK_FREE", 0x0B000000000000000000000000000000, 0xFF000000000000000000000000000000⟩,
   ⟨"DC_ENABLE_ACTUATORS", 0x0C010000000000000000000000000000, 0xFFFF0000000000000000000000000000⟩,
   ⟨"DC_DISABLE_ACTUATORS", 0x0C020000000000000000000000000000, 0xFFFF0000000000000000000000000000⟩,
   ⟨"DC_STOP_ALL", 0x0C030000000000000000000000000000, 0xFFFF0000000000000000000000000000⟩,
   ⟨"DC_FREE_ALL", 0x0C040000000000000000000000000000, 0xFFFF0000000000000000000000000000⟩,
   ⟨"DC_PAUSE", 0x0C050000000000000000000000000000, 0xFFFF0000000000000000000000000000⟩,
   ⟨"DC_CONTINUE", 0x0C060000000000000000000000000000, 0xFFFF0000000000000000000000000000⟩,
   ⟨"DEVICE_GAIN", 0x0D000000000000000000000000000000, 0xFF000000000000000000000000000000⟩,
   ⟨"IGNORED", 0x00000000000000000000000000000000, 0x00000000000000000000000000000000⟩]

/-- The mnemonic of the first row of the table that a report matches (R80, R85). -/
def tableMnemonic (b : Vector Byte 16) : Option String :=
  (opcodeTable.find? fun row => row.admits b).map OpcodeRow.mnemonic

/-- The mnemonic of a command, as spec/opcode_table.json spells it. -/
def Instr.mnemonic : Instr → String
  | .setEffect .. => "SET_EFFECT"
  | .setEnvelope .. => "SET_ENVELOPE"
  | .setCondition .. => "SET_CONDITION"
  | .setPeriodic .. => "SET_PERIODIC"
  | .setConstant .. => "SET_CONSTANT"
  | .setRamp .. => "SET_RAMP"
  | .custom7 => "CUSTOM_7"
  | .custom8 => "CUSTOM_8"
  | .custom14 => "CUSTOM_14"
  | .effectStart .. => "EFFECT_START"
  | .effectStartSolo .. => "EFFECT_START_SOLO"
  | .effectStop .. => "EFFECT_STOP"
  | .blockFreeAll => "BLOCK_FREE_ALL"
  | .blockFree _ => "BLOCK_FREE"
  | .dcEnableActuators => "DC_ENABLE_ACTUATORS"
  | .dcDisableActuators => "DC_DISABLE_ACTUATORS"
  | .dcStopAll => "DC_STOP_ALL"
  | .dcFreeAll => "DC_FREE_ALL"
  | .dcPause => "DC_PAUSE"
  | .dcContinue => "DC_CONTINUE"
  | .deviceGain _ => "DEVICE_GAIN"
  | .ignored .. => "IGNORED"
  | .create => "CREATE"
  | .getBlockLoad => "GET_BLOCK_LOAD"
  | .getPool => "GET_POOL"
  | .tick .. => "TICK"

/-! ## The pseudo-commands of R84, each the exact synonym of a transaction written in R83's notation -/

/-- `EFFECT_OP idx, operation, loopCount @now` (R83). -/
def asmEffectOp (index operation loopCount : Byte) (now : Stamp) : Request :=
  reportRequest (effectOpBytes index operation loopCount) now

/-- `BLOCK_FREE idx` (R83). -/
def asmBlockFree (index : Byte) : Request := reportRequest (blockFreeBytes index) 0

/-- `DEVICE_CONTROL control` (R83). -/
def asmDeviceControl (control : Byte) : Request := reportRequest (deviceControlBytes control) 0

/-- `START idx, loops`: `EFFECT_OP idx, 1, loops` (R84). -/
def asmStart (index loops : Byte) (now : Stamp) : Request := asmEffectOp index 1 loops now

/-- `START_SOLO idx`: `EFFECT_OP idx, 2, 0` (R84). -/
def asmStartSolo (index : Byte) (now : Stamp) : Request := asmEffectOp index 2 0 now

/-- `STOP idx`: `EFFECT_OP idx, 3, 0` (R84). -/
def asmStop (index : Byte) : Request := asmEffectOp index 3 0 0

/-- `FREE_ALL`: `BLOCK_FREE 255` (R84). -/
def asmFreeAll : Request := asmBlockFree 255

/-- `STOP_ALL`: `DEVICE_CONTROL 3` (R84). -/
def asmStopAll : Request := asmDeviceControl 3

/-- `RESET_DEVICE`: `DEVICE_CONTROL 4` (R84). -/
def asmResetDevice : Request := asmDeviceControl 4

/-- `PAUSE`: `DEVICE_CONTROL 5` (R84). -/
def asmPause : Request := asmDeviceControl 5

/-- `CONTINUE`: `DEVICE_CONTROL 6` (R84). -/
def asmContinue : Request := asmDeviceControl 6

/-! ## A request from the bits of one number

The spec gives a request no bits outside its report (R49: `now` and the samples are presented as numbers). The
numbering above bit 127 is the model's own (notes/assumptions/7.md): byte 16 holds the kind, bytes 17..24 `now`,
bytes 25..56 the samples of axis 0 and bytes 57..88 those of axis 1, each least significant byte first. A number
below `2^128` is a REPORT whose `b[k]` is its byte k. -/

/-- Byte `k` of a number, byte 0 the least significant. -/
def byteOfWord (w k : Nat) : Byte := BitVec.ofNat 8 (w >>> (8 * k))

/-- The sample record whose first byte is byte `k` of a number. -/
def samplesOfWord (w k : Nat) : SampleRecord where
  springPos := BitVec.ofNat 32 (w >>> (8 * k))
  springMax := BitVec.ofNat 32 (w >>> (8 * k + 32))
  damperVel := BitVec.ofNat 32 (w >>> (8 * k + 64))
  damperMax := BitVec.ofNat 32 (w >>> (8 * k + 96))
  inertiaAcc := BitVec.ofNat 32 (w >>> (8 * k + 128))
  inertiaMax := BitVec.ofNat 32 (w >>> (8 * k + 160))
  frictionPos := BitVec.ofNat 32 (w >>> (8 * k + 192))
  frictionMax := BitVec.ofNat 32 (w >>> (8 * k + 224))

/-- The request whose low `nbits` bits are those of `w` and whose other bits are 0. -/
def requestOfWord (nbits w : Nat) : Request :=
  let v := w % 2 ^ nbits
  { kind := BitVec.ofNat 3 (v >>> 128)
    report := #v[byteOfWord v 0, byteOfWord v 1, byteOfWord v 2, byteOfWord v 3, byteOfWord v 4, byteOfWord v 5,
      byteOfWord v 6, byteOfWord v 7, byteOfWord v 8, byteOfWord v 9, byteOfWord v 10, byteOfWord v 11,
      byteOfWord v 12, byteOfWord v 13, byteOfWord v 14, byteOfWord v 15]
    now := BitVec.ofNat 64 (v >>> 136)
    samples0 := samplesOfWord v 25
    samples1 := samplesOfWord v 57 }

/-- The command that the decoder reads from an instruction whose bits are `w`, numbered as the opcode table numbers
them (the first byte in bits 7..0); every bit above `nbits` is 0. -/
def decodeTableWord (nbits w : Nat) : Option Instr :=
  match decode (requestOfWord nbits w) with
  | .ok i => some i
  | .error _ => none

end Sys2Proof
end

