-- ==== Sys2Proof/Machine/Flags.lean ====
section
/-! DEFINITION. The flags of the core (R36): the allocated and the playing bit of a record's `state` byte (R20). The
other two, `paused` and `blockLoad.status`, are whole fields of State. There are no condition codes. -/

namespace Sys2Proof.Machine

/-- The `state` byte of an allocated, stopped record: `0b01` (R20). -/
def allocatedState : Byte := 0b01

/-- The playing bit alone: `0b10` (R20). -/
def playingMask : Byte := 0b10

/-- Bit 0 of `state`: allocated (R20). -/
def Slot.allocated (r : Slot) : Bool := r.state.getLsbD 0

/-- Bit 1 of `state`: playing (R20). -/
def Slot.playing (r : Slot) : Bool := r.state.getLsbD 1

/-- A record is eligible for allocation when its `state`, all eight bits, is 0 (R41, R87). -/
def Slot.eligible (r : Slot) : Bool := r.state == 0

/-- `state <- state OR 0b10`: bit 0 is left as it was (R90). -/
def Slot.setPlaying (r : Slot) : Slot := { r with state := r.state ||| playingMask }

/-- `state <- state AND 0b01`: clears the playing bit (R91, R92). -/
def Slot.clearPlaying (r : Slot) : Slot := { r with state := r.state &&& allocatedState }

/-- `state <- 0`: clears both bits; the parameters stay (R88, R89). -/
def Slot.clearState (r : Slot) : Slot := { r with state := 0 }

end Sys2Proof.Machine
end

