-- ==== Sys2Proof/Machine/Operands.lean ====
section
/-! DEFINITION. What a command's operands name (spec/20_memory.md): the slot index space and its range test
(R44 to R47), reading and writing a record, the two condition blocks of a record (R45, R135), the effect type that a
code names (R21), and the bytes of an outgoing 16-bit field (R49). -/

namespace Sys2Proof.Machine

/-- `inRange(i)`: `1 ≤ i ≤ N` (R46). Index 0 and the indices above N are out of range. -/
def inRange (index : Byte) : Bool := decide (1 ≤ index.toNat ∧ index.toNat ≤ Config.slotCount)

/-- `slot[i]`, read (R13). The table has no record above index N. -/
def State.slot (s : State) (i : Nat) : Slot := if h : i < 15 then s.slots[i] else Slot.zero

/-- `slot[i] <- r` (R13). -/
def State.setSlot (s : State) (i : Nat) (r : Slot) : State := { s with slots := s.slots.setIfInBounds i r }

/-- The part of a command that its index byte addresses: the record is changed by `f` where the index is in range,
and nothing happens where it is not (R46, R159). -/
def State.updateTarget (s : State) (index : Byte) (f : Slot → Slot) : State :=
  if inRange index then s.setSlot index.toNat (f (s.slot index.toNat)) else s

/-- `for i in 0..N`, ascending (R13, R86). -/
def State.forEachSlot (s : State) (body : State → Nat → State) : State :=
  (List.range (Config.slotCount + 1)).foldl body s

/-- Set Condition's block `k`, for `k = 0` and `k = 1`; a higher block offset names no block (R45, R69). -/
def Slot.setConditionBlock (r : Slot) (blockOffset : Byte) (b : ConditionBlock) : Slot :=
  if blockOffset = 0 then { r with cond0 := b } else if blockOffset = 1 then { r with cond1 := b } else r

/-- The block that the condition law reads for an output axis: block `a` once more than one Set Condition report was
accepted, block 0 for both axes until then (R135). -/
def Slot.conditionBlock (r : Slot) (a : Axis) : ConditionBlock :=
  if 1 < r.conditionBlocksCount.toNat then
    match a with
    | .axis0 => r.cond0
    | .axis1 => r.cond1
  else r.cond0

/-- The effect type that a code names (R21). -/
def effectTypeOf (code : Byte) : EffectType :=
  if code = 1 then .constant
  else if code = 2 then .ramp
  else if code = 3 then .square
  else if code = 4 then .sine
  else if code = 5 then .triangle
  else if code = 6 then .sawtoothDown
  else if code = 7 then .sawtoothUp
  else if code = 8 then .spring
  else if code = 9 then .damper
  else if code = 10 then .inertia
  else if code = 11 then .friction
  else if code = 12 then .custom
  else .untyped

/-- A record without the three fields that no rule reads (R23). -/
def Slot.eraseDirections (r : Slot) : Slot := { r with enableAxis := 0, directionX := 0, directionY := 0 }

/-- The block load record (R78, R153). -/
def blockLoadRecord (c : Config) (b : BlockLoad) (pool : Half) : Vector Byte 5 :=
  #v[c.blockLoadReportId, b.index, b.status, lowByte pool, highByte pool]

/-- The static pool record (R79, R154). -/
def poolRecord (c : Config) : Vector Byte 5 :=
  let full := BitVec.ofNat 16 c.poolFull
  #v[c.poolReportId, lowByte full, highByte full, BitVec.ofNat 8 Config.slotCount, c.memMgmt]

end Sys2Proof.Machine
end

