-- ==== Sys2Proof/Machine/Ops.lean ====
section
/-! DEFINITION. The named operations over the state: the device-wide registers (spec/10_state.md R30 to R34), the
six primitives of the effect table (spec/40_effect_table.md R87 to R92), and answering a request (R59). The core takes
no exception and returns from none (R156, R164), so there is no operation for either. -/

namespace Sys2Proof.Machine

/-! ## Registers and ports -/

/-- `cursor <- v` (R30). -/
def State.setCursor (s : State) (v : Byte) : State := { s with cursor := v }

/-- `pool <- v` (R31). -/
def State.setPool (s : State) (v : Half) : State := { s with pool := v }

/-- `paused <- v` (R32). -/
def State.setPaused (s : State) (v : Bool) : State := { s with paused := v }

/-- `deviceGain <- v` (R33). -/
def State.setDeviceGain (s : State) (v : Byte) : State := { s with deviceGain := v }

/-- `blockLoad.index <- index; blockLoad.status <- status` (R34). -/
def State.setBlockLoad (s : State) (index status : Byte) : State := { s with blockLoad := ⟨index, status⟩ }

/-- The requests still to be accepted. -/
def State.setPending (s : State) (p : List Request) : State := { s with pending := p }

/-- The response port. -/
def State.setResponse (s : State) (r : Option Response) : State := { s with response := r }

/-- A request has been served with this response (R59). -/
def answer (r : Response) (s : State) : Result := .next (s.setResponse (some r))

/-! ## The allocator -/

/-- `while c <= N and slot[c].state != 0: c <- c + 1`, at most `fuel` times (R87). -/
def scanOccupied (s : State) : (fuel : Nat) → (c : Nat) → Nat
  | 0, c => c
  | fuel + 1, c => if c ≤ Config.slotCount ∧ (s.slot c).eligible = false then scanOccupied s fuel (c + 1) else c

/-- The scan of R87 from index `c`: the first eligible index at or above it, or N + 1. -/
def nextEligible (s : State) (c : Nat) : Nat := scanOccupied s (Config.slotCount + 1 - c) c

/-- A record just allocated: `ZERO` with the allocated bit (R29, R87). -/
def freshSlot : Slot := { Slot.zero with state := allocatedState }

/-- `allocate()` (R87): the index handed out and the state it leaves, or nothing for `CapacityExceeded`, which
writes no field of the table, the cursor or the pool. -/
def allocate (c : Config) (s : State) : Option (Nat × State) :=
  let id := nextEligible s s.cursor.toNat
  if Config.slotCount < id then none
  else
    let s₁ := (s.setSlot id freshSlot).setPool (poolDebit c s.pool)
    some (id, s₁.setCursor (BitVec.ofNat 8 (nextEligible s₁ (id + 1))))

/-- `free(i)` (R88). An index out of range is silently ignored; a freed index below the cursor becomes the cursor. -/
def free (index : Byte) (s : State) : State :=
  if inRange index then
    let s₁ := s.updateTarget index Slot.clearState
    if index.toNat < s₁.cursor.toNat then s₁.setCursor index else s₁
  else s

/-- `freeAll()` (R89). -/
def freeAll (c : Config) (s : State) : State :=
  ((s.forEachSlot fun t i => t.setSlot i (t.slot i).clearState).setCursor 1).setPool (BitVec.ofNat 16 c.poolFull)

/-- `start(i, now)` (R90): the allocated bit is not tested. -/
def start (index : Byte) (now : Stamp) (s : State) : State :=
  s.updateTarget index fun r => { r.setPlaying with elapsedTime := 0, startTime := now }

/-- The body that `stop` and `stopAll` share: clear the playing bit of one record and credit the pool (R91, R92). -/
def stopBody (c : Config) (s : State) (i : Nat) : State :=
  (s.setSlot i (s.slot i).clearPlaying).setPool (poolCredit c s.pool)

/-- `stop(i)` (R91): an index out of range credits nothing. -/
def stop (c : Config) (index : Byte) (s : State) : State :=
  if inRange index then stopBody c s index.toNat else s

/-- `stopAll()` (R92): the body of `stop`, without its range test, on each record 0..N. -/
def stopAll (c : Config) (s : State) : State := s.forEachSlot (stopBody c)

end Sys2Proof.Machine
end

