-- ==== Sys2Proof/Machine/BlockFree.lean ====
section
/-! DEFINITION. Block Free, tag 11 (spec/41_report_dispatcher.md R108, R109). -/

namespace Sys2Proof.Machine

/-- BLOCK_FREE_ALL (R108). -/
def execBlockFreeAll (s : State) : Result := answer .empty (freeAll Config.implementation s)

/-- BLOCK_FREE (R109). -/
def execBlockFree (index : Byte) (s : State) : Result := answer .empty (free index s)

end Sys2Proof.Machine
end

