-- ==== Sys2Proof/Machine/DeviceControl.lean ====
section
/-! DEFINITION. Device Control, tag 12, and Device Gain, tag 13 (spec/41_report_dispatcher.md R110 to R116). -/

namespace Sys2Proof.Machine

/-- DC_ENABLE_ACTUATORS (R110): a reserved no-op. -/
def execDcEnableActuators (s : State) : Result := answer .empty s

/-- DC_DISABLE_ACTUATORS (R111): a reserved no-op; later ticks still compute forces. -/
def execDcDisableActuators (s : State) : Result := answer .empty s

/-- DC_STOP_ALL (R112). -/
def execDcStopAll (s : State) : Result := answer .empty (stopAll Config.implementation s)

/-- DC_FREE_ALL (R113): the pause flag and the device gain stay. -/
def execDcFreeAll (s : State) : Result := answer .empty (freeAll Config.implementation s)

/-- DC_PAUSE (R114). -/
def execDcPause (s : State) : Result := answer .empty (s.setPaused true)

/-- DC_CONTINUE (R115). -/
def execDcContinue (s : State) : Result := answer .empty (s.setPaused false)

/-- DEVICE_GAIN (R116). -/
def execDeviceGain (gain : Byte) (s : State) : Result := answer .empty (s.setDeviceGain gain)

end Sys2Proof.Machine
end

