-- ==== Sys2Proof/Machine/EffectOperation.lean ====
section
/-! DEFINITION. Effect Operation, tag 10 (spec/41_report_dispatcher.md R105 to R107). -/

namespace Sys2Proof.Machine

/-- What a start with loop count `loopCount` does to the stored duration: 1..254 multiplies it, 255 makes it
infinite, 0 leaves it (R105). -/
def loopedDuration (duration : Half) (loopCount : Byte) : Half :=
  if 1 ≤ loopCount.toNat ∧ loopCount.toNat ≤ 254 then durationTimes duration loopCount
  else if loopCount = 255 then Config.durationInfinite
  else duration

/-- EFFECT_START (R105): out of range, neither the duration nor the state changes. -/
def execEffectStart (index loopCount : Byte) (now : Stamp) (s : State) : Result :=
  answer .empty (start index now
    (s.updateTarget index fun r => { r with duration := loopedDuration r.duration loopCount }))

/-- EFFECT_START_SOLO (R106), with the parameters `c`: `stopAll` runs even where the index is out of range. -/
def startSolo (c : Config) (index : Byte) (now : Stamp) (s : State) : State := start index now (stopAll c s)

/-- EFFECT_START_SOLO (R106). -/
def execEffectStartSolo (index : Byte) (now : Stamp) (s : State) : Result :=
  answer .empty (startSolo Config.implementation index now s)

/-- EFFECT_STOP (R107). -/
def execEffectStop (index : Byte) (s : State) : Result :=
  answer .empty (stop Config.implementation index s)

end Sys2Proof.Machine
end

