-- ==== Sys2Proof/Machine/Feature.lean ====
section
/-! DEFINITION. The allocation request and the two feature-report reads (spec/45_feature_reports.md R152 to R154). -/

namespace Sys2Proof.Machine

/-- CREATE (R152), with the parameters `c`: the outcome of `allocate` is recorded in `blockLoad`, and the response
repeats it with the pool counter after the allocation. -/
def createWith (c : Config) (s : State) : Result :=
  let s₁ := match allocate c s with
    | none => s.setBlockLoad 0 2
    | some (id, t) => t.setBlockLoad (BitVec.ofNat 8 id) 1
  answer (.created s₁.blockLoad.index s₁.blockLoad.status s₁.pool) s₁

/-- CREATE (R152). -/
def execCreate (s : State) : Result := createWith Config.implementation s

/-- GET_BLOCK_LOAD (R153): the pool counter is read live. -/
def execGetBlockLoad (s : State) : Result :=
  answer (.feature (blockLoadRecord Config.implementation s.blockLoad s.pool)) s

/-- GET_POOL (R154): every byte is a constant of the implementation. -/
def execGetPool (s : State) : Result := answer (.feature (poolRecord Config.implementation)) s

end Sys2Proof.Machine
end

