-- ==== Sys2Proof/Machine/Inert.lean ====
section
/-! DEFINITION. The reports that read and write no state: the custom-force variants, "accepted, no state change"
(spec/41_report_dispatcher.md R102 to R104), and the report that matches no row (R117). Each is acknowledged like every
other report (R59). -/

namespace Sys2Proof.Machine

/-- CUSTOM_7 (R102). -/
def execCustom7 (s : State) : Result := answer .empty s

/-- CUSTOM_8 (R103). -/
def execCustom8 (s : State) : Result := answer .empty s

/-- CUSTOM_14 (R104). -/
def execCustom14 (s : State) : Result := answer .empty s

/-- IGNORED (R117). -/
def execIgnored (s : State) : Result := answer .empty s

end Sys2Proof.Machine
end

