-- ==== Sys2Proof/Machine/Parameters.lean ====
section
/-! DEFINITION. The six parameter-update reports (spec/41_report_dispatcher.md R96 to R101). Each overwrites the fields
its layout names in the record its index byte addresses, whatever that record's `state` (R95), and does nothing where
the index is out of range. -/

namespace Sys2Proof.Machine

/-- SET_EFFECT (R96). -/
def execSetEffect (index effectType : Byte) (duration : Half) (gain enableAxis directionX directionY : Byte)
    (s : State) : Result :=
  answer .empty (s.updateTarget index fun r =>
    { r with effectType := effectType, duration := duration, gain := gain, enableAxis := enableAxis,
             directionX := directionX, directionY := directionY })

/-- SET_ENVELOPE (R97). -/
def execSetEnvelope (index : Byte) (attackLevel fadeLevel attackTime fadeTime : Half) (s : State) : Result :=
  answer .empty (s.updateTarget index fun r =>
    { r with attackLevel := attackLevel, fadeLevel := fadeLevel, attackTime := attackTime, fadeTime := fadeTime })

/-- SET_CONDITION (R98): a block offset above 1 makes the whole report ignored, the count included. -/
def execSetCondition (index blockOffset : Byte) (cpOffset positiveCoefficient negativeCoefficient : Half)
    (positiveSaturation negativeSaturation deadBand : Half) (s : State) : Result :=
  answer .empty (if 1 < blockOffset.toNat then s
    else s.updateTarget index fun r =>
      { r.setConditionBlock blockOffset ⟨cpOffset, positiveCoefficient, negativeCoefficient, positiveSaturation,
          negativeSaturation, deadBand⟩ with conditionBlocksCount := countAccepted r.conditionBlocksCount })

/-- SET_PERIODIC (R99). -/
def execSetPeriodic (index : Byte) (magnitude offset phase period : Half) (s : State) : Result :=
  answer .empty (s.updateTarget index fun r =>
    { r with magnitude := magnitude, offset := offset, phase := phase, period := period })

/-- SET_CONSTANT (R100): the same `magnitude` field that SET_PERIODIC writes. -/
def execSetConstant (index : Byte) (magnitude : Half) (s : State) : Result :=
  answer .empty (s.updateTarget index fun r => { r with magnitude := magnitude })

/-- SET_RAMP (R101). -/
def execSetRamp (index : Byte) (startMagnitude endMagnitude : Half) (s : State) : Result :=
  answer .empty (s.updateTarget index fun r =>
    { r with startMagnitude := startMagnitude, endMagnitude := endMagnitude })

end Sys2Proof.Machine
end

