-- ==== Sys2Proof/Machine/Condition.lean ====
section
/-! DEFINITION. The ConditionEngine (spec/43_condition_engine.md): the three-zone law (R136) on a normalised sample
(R134), and the four effect types that use it (R137 to R140). The law works in exact rational arithmetic; its one
conversion to an integer is the last `trunc`. The engine reads the record and one axis's samples and writes nothing. -/

namespace Sys2Proof.Machine

/-- The force of the three-zone law before the negation and the gain (R136). The comparisons are with the unscaled
`cpOffset ∓ deadBand`, the subtractions of the same integers over 10000, and each clamp has one side. -/
def zoneForce (b : ConditionBlock) (n : Rat) : Rat :=
  let lo := signed b.cpOffset - unsigned b.deadBand
  let hi := signed b.cpOffset + unsigned b.deadBand
  if n < (lo : Rat) then
    max ((n - (lo : Rat) / 10000) * (signed b.negativeCoefficient : Rat)) (-(unsigned b.negativeSaturation : Rat))
  else if (hi : Rat) < n then
    min ((n - (hi : Rat) / 10000) * (signed b.positiveCoefficient : Rat)) (unsigned b.positiveSaturation : Rat)
  else 0

/-- `CondN(s, a, n)` (R136): negated, scaled by `gain/255` and truncated once. -/
def condN (s : Slot) (a : Axis) (n : Rat) : Int :=
  trunc (-(zoneForce (s.conditionBlock a) n) * (s.gain.toNat : Rat) / 255)

/-- `Cond(s, a, x, xmax)` (R133, R134): a sample maximum of 0 yields 0; the quotient is exact and not clamped. -/
def cond (s : Slot) (a : Axis) (x xmax : Sample) : Int :=
  if xmax.toInt = 0 then 0 else condN s a ((x.toInt : Rat) / (xmax.toInt : Rat))

/-- Spring (R137). -/
def springForce (s : Slot) (a : Axis) (smp : SampleRecord) : Int := cond s a smp.springPos smp.springMax

/-- Damper (R138). -/
def damperForce (s : Slot) (a : Axis) (smp : SampleRecord) : Int := cond s a smp.damperVel smp.damperMax

/-- Inertia (R139): `INERTIA_RULE` as a function of `(s, a, smp)`. Whatever the rule, the value is a result of the
condition law on the normalised acceleration, with a sign chosen from the signs of the acceleration and of the position
proxy; an acceleration maximum of 0 yields 0 (R160). -/
def inertiaForce (rule : InertiaRule) (s : Slot) (a : Axis) (smp : SampleRecord) : Int :=
  let acc := smp.inertiaAcc.toInt
  let mx := smp.inertiaMax.toInt
  if mx = 0 then 0
  else
    let q := (acc : Rat) / (mx : Rat)
    let accSign := if rule.normalised a then signOf (acc * mx) else signOf acc
    let proxySign := signOf (rule.proxy a smp)
    let n := if rule.absolute a accSign proxySign then |q| else q
    (rule.sign a accSign proxySign : Int) * condN s a n

/-- The default `INERTIA_RULE` of R139 (from general knowledge, spec/93_implementation_defined.md K4;
notes/assumptions/6.md): the friction position is the position proxy, the law is applied to the absolute value of the
normalised acceleration (`INERTIA_ABS`), and a negative acceleration gives the sign opposite to the proxy's. -/
def defaultInertia : InertiaRule where
  normalised := fun _ => false
  proxy := fun _ smp => smp.frictionPos.toInt
  sign := fun _ accSign posSign => if accSign = -1 then -posSign else 0
  absolute := fun _ _ _ => true

/-- Friction (R140): the shared law on the friction position. -/
def frictionForce (s : Slot) (a : Axis) (smp : SampleRecord) : Int := cond s a smp.frictionPos smp.frictionMax

end Sys2Proof.Machine
end

