-- ==== Sys2Proof/Machine/Waveform.lean ====
section
/-! DEFINITION. The WaveformEngine (spec/42_waveform_engine.md): the seven generators (R125 to R131), the phase-shifted
time that four of them share (R124), the envelope shaper (R120 to R123) and `Wave` (R118). A generator or the envelope
that would divide by a field whose value is 0 is Degenerate, `none` here, and contributes 0 (R119). The engine reads the
record alone and writes nothing. -/

namespace Sys2Proof.Machine

/-! ## Generators -/

/-- `PhasePos(s)`: the position in the period, Degenerate where the period is 0 (R124). -/
def phasePos (s : Slot) : Option Int :=
  let period := unsigned s.period
  if period = 0 then none
  else some ((unsigned s.elapsedTime + tdiv (unsigned s.phase * period) 255) % period)

/-- The upper end `2 × offset + magnitude` of Triangle and the sawtooth waves (R129, R130, R131). -/
def waveMax (s : Slot) : Int := 2 * signed s.offset + signed s.magnitude

/-- The lower end `2 × offset − magnitude` of Triangle and the sawtooth waves (R129, R130, R131). -/
def waveMin (s : Slot) : Int := 2 * signed s.offset - signed s.magnitude

/-- Constant (R125). -/
def rawConstant (s : Slot) : Option Int := some (signed s.magnitude)

/-- Ramp (R126): the sum is formed exactly and truncated once; Degenerate where the duration is 0. -/
def rawRamp (s : Slot) : Option Int :=
  let d := unsigned s.duration
  if d = 0 then none
  else
    let rise := unsigned s.elapsedTime * (signed s.endMagnitude - signed s.startMagnitude)
    some (trunc ((signed s.startMagnitude : Rat) + (rise : Rat) / (d : Rat)))

/-- Square (R127): the high level comes first and lasts `tdiv(period, 2) + 1` time units. -/
def rawSquare (s : Slot) : Option Int :=
  (phasePos s).map fun r =>
    let o := 2 * signed s.offset
    if tdiv (unsigned s.period) 2 < r then o - signed s.magnitude else o + signed s.magnitude

/-- The angle of Sine: 0 where the period is 0 (R128, R119), else `(e / period) × 2 × PI + phase / 36000`, both
divisions exact. -/
def sineAngle (c : Config) (s : Slot) : Rat :=
  if unsigned s.period = 0 then 0
  else (unsigned s.elapsedTime : Rat) / (unsigned s.period : Rat) * 2 * c.pi + (unsigned s.phase : Rat) / 36000

/-- Sine (R128): never Degenerate itself. -/
def rawSine (c : Config) (s : Slot) : Option Int :=
  some (2 * signed s.offset + roundHalfAway (c.sin (sineAngle c s) * (signed s.magnitude : Rat)))

/-- Triangle (R129): an integer slope, up for the first half of the period and down for the second. -/
def rawTriangle (s : Slot) : Option Int :=
  (phasePos s).map fun r =>
    let period := unsigned s.period
    let slope := tdiv (2 * (waveMax s - waveMin s)) period
    if tdiv period 2 < r then waveMin s + slope * (period - r) else waveMin s + slope * r

/-- SawtoothDown (R130). -/
def rawSawtoothDown (s : Slot) : Option Int :=
  (phasePos s).map fun r =>
    waveMin s + tdiv (waveMax s - waveMin s) (unsigned s.period) * (unsigned s.period - r)

/-- SawtoothUp (R131). -/
def rawSawtoothUp (s : Slot) : Option Int :=
  (phasePos s).map fun r => waveMin s + tdiv (waveMax s - waveMin s) (unsigned s.period) * r

/-- `Raw(s)`: the generator that the effect type selects (R118). The engine is not asked for the other types
(R147). -/
def rawWave (c : Config) (s : Slot) : Option Int :=
  match effectTypeOf s.effectType with
  | .constant => rawConstant s
  | .ramp => rawRamp s
  | .square => rawSquare s
  | .sine => rawSine c s
  | .triangle => rawTriangle s
  | .sawtoothDown => rawSawtoothDown s
  | .sawtoothUp => rawSawtoothUp s
  | .spring => none
  | .damper => none
  | .inertia => none
  | .friction => none
  | .custom => none
  | .untyped => none

/-! ## Envelope -/

/-- A level scaled by `gain/255`: multiply first, then one truncating division (R120). -/
def gainScaled (s : Slot) (level : Int) : Int := tdiv (level * (s.gain.toNat : Int)) 255

/-- `m'`, the gain-scaled magnitude (R120). -/
def scaledMagnitude (s : Slot) : Int := gainScaled s (signed s.magnitude)

/-- `a'`, the gain-scaled attack level (R120). -/
def scaledAttack (s : Slot) : Int := gainScaled s (unsigned s.attackLevel)

/-- `f'`, the gain-scaled fade level (R120). -/
def scaledFade (s : Slot) : Int := gainScaled s (unsigned s.fadeLevel)

/-- The attack branch (R121): the shaped magnitude before the fade branch. -/
def attackShaped (s : Slot) : Int :=
  if unsigned s.elapsedTime < unsigned s.attackTime then
    scaledAttack s
      + tdiv ((scaledMagnitude s - scaledAttack s) * unsigned s.elapsedTime) (unsigned s.attackTime)
  else scaledMagnitude s

/-- The shaped magnitude (R121, then R122): within the fade window the fade value replaces whatever the attack branch
gave; a fade time of 0 within the window is Degenerate. -/
def shapedMagnitude (s : Slot) : Option Int :=
  if unsigned s.duration - unsigned s.fadeTime < unsigned s.elapsedTime then
    if unsigned s.fadeTime = 0 then none
    else some (scaledFade s
      + tdiv ((scaledMagnitude s - scaledFade s) * (unsigned s.duration - unsigned s.elapsedTime))
          (unsigned s.fadeTime))
  else some (attackShaped s)

/-- `Envelope(s, raw)` (R123): the divisor is the stored magnitude, for every type. -/
def envelope (s : Slot) (raw : Int) : Option Int :=
  if signed s.magnitude = 0 then none
  else (shapedMagnitude s).map fun shaped => tdiv (shaped * raw) (signed s.magnitude)

/-- `Wave(s)` (R118): 0 where the generator or the envelope is Degenerate (R119). -/
def wave (c : Config) (s : Slot) : Int := ((rawWave c s).bind (envelope s)).getD 0

end Sys2Proof.Machine
end

