-- ==== Sys2Proof/Machine/Reducer.lean ====
section
/-! DEFINITION. The ForceReducer (spec/44_force_reducer.md): which slots a tick serves (R145), what each contributes
(R147), the elapsed-time update (R148), the output stage (R149, R150), and TICK (R142). -/

namespace Sys2Proof.Machine

/-- `Visited(s)` (R145): allocated and playing, and not past its duration unless the duration is the infinite
sentinel. The pause flag is tested by the tick (R143). -/
def Slot.visited (s : Slot) : Bool :=
  s.allocated && s.playing
    && (decide (s.elapsedTime.toNat ≤ s.duration.toNat) || s.duration == Config.durationInfinite)

/-- `Contribution(s, a, smp)` (R147): the engine that the effect type selects, times that type's gain. Custom and the
codes that name no type contribute 0. -/
def contribution (c : Config) (s : Slot) (a : Axis) (smp : SampleRecord) : Int :=
  match effectTypeOf s.effectType with
  | .constant => wave c s * ((c.typeGain .constant).toNat : Int)
  | .ramp => wave c s * ((c.typeGain .ramp).toNat : Int)
  | .square => wave c s * ((c.typeGain .square).toNat : Int)
  | .sine => wave c s * ((c.typeGain .sine).toNat : Int)
  | .triangle => wave c s * ((c.typeGain .triangle).toNat : Int)
  | .sawtoothDown => wave c s * ((c.typeGain .sawtoothDown).toNat : Int)
  | .sawtoothUp => wave c s * ((c.typeGain .sawtoothUp).toNat : Int)
  | .spring => springForce s a smp * ((c.typeGain .spring).toNat : Int)
  | .damper => damperForce s a smp * ((c.typeGain .damper).toNat : Int)
  | .inertia => inertiaForce c.inertia s a smp * ((c.typeGain .inertia).toNat : Int)
  | .friction => frictionForce s a smp * ((c.typeGain .friction).toNat : Int)
  | .custom => 0
  | .untyped => 0

/-- What a tick holds while it walks the table (R37): the state and the two axis sums. It outlives no tick. -/
structure TickWork where
  state : State
  acc0 : Int
  acc1 : Int

/-- One slot's work in a tick (R142, R144): where the slot is visited, both axes' contributions are added, computed at
the old elapsed time, and then its elapsed time is written. -/
def tickSlot (c : Config) (now : Stamp) (samples0 samples1 : SampleRecord) (w : TickWork) (i : Nat) : TickWork :=
  let s := w.state.slot i
  if s.visited then
    { state := w.state.setSlot i { s with elapsedTime := elapsedSince now s.startTime }
      acc0 := w.acc0 + contribution c s .axis0 samples0
      acc1 := w.acc1 + contribution c s .axis1 samples1 }
  else w

/-- The slots a tick walks: 1..N, ascending (R144). -/
def walkedSlots : List Nat := List.range' 1 Config.slotCount

/-- The walk of a tick: not executed at all while paused (R143). -/
def tickWalk (c : Config) (now : Stamp) (samples0 samples1 : SampleRecord) (s : State) : TickWork :=
  if s.paused then ⟨s, 0, 0⟩ else walkedSlots.foldl (tickSlot c now samples0 samples1) ⟨s, 0, 0⟩

/-- The total gain: multiply first, then one truncating division (R149). -/
def totalGained (c : Config) (acc : Int) : Int := tdiv (acc * (c.totalGain.toNat : Int)) Config.gainDiv

/-- `Rescale(g)`: the linear map of `[−W, W]` onto `[−R, R]`, clamped (R150). -/
def rescale (c : Config) (g : Int) : Int :=
  clamp (tdiv ((g + c.forceWide) * 2 * Config.forceOut) (2 * c.forceWide) - Config.forceOut)
    (-Config.forceOut) Config.forceOut

/-- The output force of an axis sum (R149, R150). -/
def outputForce (c : Config) (acc : Int) : Int := rescale c (totalGained c acc)

/-- TICK (R142), with the parameters `c`. -/
def tickWith (c : Config) (now : Stamp) (samples0 samples1 : SampleRecord) (s : State) : Result :=
  let w := tickWalk c now samples0 samples1 s
  answer (.forces (forceWord (outputForce c w.acc0)) (forceWord (outputForce c w.acc1))) w.state

/-- TICK (R142). -/
def execTick (now : Stamp) (samples0 samples1 : SampleRecord) (s : State) : Result :=
  tickWith Config.implementation now samples0 samples1 s

end Sys2Proof.Machine
end

