-- ==== Sys2Proof/Machine/Dispatch.lean ====
section
/-! DEFINITION. The meaning of each command, one arm per row of spec/opcode_table.json. -/

namespace Sys2Proof.Machine

def exec (i : Instr) (s : State) : Host.Outcome State Fault Refusal :=
  match i with
  | .setEffect index effectType duration gain enableAxis directionX directionY => Sys2Proof.Machine.execSetEffect index effectType duration gain enableAxis directionX directionY s
  | .setEnvelope index attackLevel fadeLevel attackTime fadeTime => Sys2Proof.Machine.execSetEnvelope index attackLevel fadeLevel attackTime fadeTime s
  | .setCondition index blockOffset cpOffset posCoef negCoef posSat negSat deadBand => Sys2Proof.Machine.execSetCondition index blockOffset cpOffset posCoef negCoef posSat negSat deadBand s
  | .setPeriodic index magnitude offset phase period => Sys2Proof.Machine.execSetPeriodic index magnitude offset phase period s
  | .setConstant index magnitude => Sys2Proof.Machine.execSetConstant index magnitude s
  | .setRamp index startMagnitude endMagnitude => Sys2Proof.Machine.execSetRamp index startMagnitude endMagnitude s
  | .custom7 => Sys2Proof.Machine.execCustom7 s
  | .custom8 => Sys2Proof.Machine.execCustom8 s
  | .custom14 => Sys2Proof.Machine.execCustom14 s
  | .effectStart index loopCount now => Sys2Proof.Machine.execEffectStart index loopCount now s
  | .effectStartSolo index _ now => Sys2Proof.Machine.execEffectStartSolo index now s
  | .effectStop index _ => Sys2Proof.Machine.execEffectStop index s
  | .blockFreeAll => Sys2Proof.Machine.execBlockFreeAll s
  | .blockFree index => Sys2Proof.Machine.execBlockFree index s
  | .dcEnableActuators => Sys2Proof.Machine.execDcEnableActuators s
  | .dcDisableActuators => Sys2Proof.Machine.execDcDisableActuators s
  | .dcStopAll => Sys2Proof.Machine.execDcStopAll s
  | .dcFreeAll => Sys2Proof.Machine.execDcFreeAll s
  | .dcPause => Sys2Proof.Machine.execDcPause s
  | .dcContinue => Sys2Proof.Machine.execDcContinue s
  | .deviceGain gain => Sys2Proof.Machine.execDeviceGain gain s
  | .ignored _ _ _ => Sys2Proof.Machine.execIgnored s
  | .create => Sys2Proof.Machine.execCreate s
  | .getBlockLoad => Sys2Proof.Machine.execGetBlockLoad s
  | .getPool => Sys2Proof.Machine.execGetPool s
  | .tick now samples0 samples1 => Sys2Proof.Machine.execTick now samples0 samples1 s

end Sys2Proof.Machine
end

