-- ==== Sys2Proof/Machine/Port.lean ====
section
/-! DEFINITION. The request port: which of the pending requests the core accepts next (R54, R163), the answer to a
reserved kind (R60), a step with nothing to do (R15), and the reset input (R169). -/

namespace Sys2Proof.Machine

/-- Whether a request is a TICK (R59, kind 4). -/
def isTick (r : Request) : Bool := r.kind == 4

/-- The first pending request that is not a TICK, and the requests that stay pending. -/
def takeHostRequest : List Request → Option (Request × List Request)
  | [] => none
  | r :: rest =>
    if isTick r then (takeHostRequest rest).map fun p => (p.1, r :: p.2) else some (r, rest)

/-- The request that the core accepts next, and those that stay pending: pending host requests first, in arrival
order, then the tick (R54, R163). -/
def acceptNext (pending : List Request) : Option (Request × List Request) :=
  match takeHostRequest pending with
  | some p => some p
  | none =>
    match pending with
    | [] => none
    | r :: rest => some (r, rest)

/-- The environment presents a request, behind those already pending. -/
def State.present (s : State) (r : Request) : State := s.setPending (s.pending ++ [r])

/-- The core with `r` as the very next request it accepts: `r` first in line, no request that would be taken before
it, and the reset input released. -/
def State.presentFirst (s : State) (r : Request) : State :=
  { s with
    pending := r :: (if isTick r then s.pending.filter isTick else s.pending)
    resetInput := .released }

/-- A step with nothing pending: the core acts only in response to a transaction (R15), so nothing is answered and
nothing else changes. -/
def idle (s : State) : Result := .next (s.setResponse none)

/-- A request of kind 5, 6 or 7 is answered with an empty response and changes no state (R60). -/
def answerReserved (s : State) : Result := answer .empty s

/-- The reset event (R169): the state after reset, with no response; requests that the core has not accepted stay
pending, and a transaction in progress is abandoned. -/
def takeReset (s : State) (inProgress : Bool) : State :=
  State.reset.setPending
    (if inProgress then
      match acceptNext s.pending with
      | none => []
      | some (_, rest) => rest
    else s.pending)

end Sys2Proof.Machine
end

