-- ==== Sys2Proof/Machine/Transaction.lean ====
section
/-! DEFINITION. The transaction, the unit of execution (spec/00_scope.md R14): accepting a request, decoding it and
running its command to completion. -/

namespace Sys2Proof.Machine

/-- The transaction that the core accepts next, run to completion (R52, R54): what stays pending is kept, the request
is decoded, and the command's meaning answers; a reserved kind is answered and changes nothing (R60). -/
def transact (s : State) : Result :=
  match acceptNext s.pending with
  | none => idle s
  | some (r, rest) =>
    match decode r with
    | .ok i => exec i (s.setPending rest)
    | .error _ => answerReserved (s.setPending rest)

end Sys2Proof.Machine
end

