-- ==== Sys2Proof/Machine/Step.lean ====
section
/-! DEFINITION. One step of the machine: one transaction (R14), one reset event (R169), or nothing where the
environment presents nothing (R15). -/

namespace Sys2Proof.Machine

/-- One step. -/
def step (s : State) : Host.Outcome State Fault Refusal :=
  match s.resetInput with
  | .released => transact s
  | .betweenTransactions => .next (takeReset s false)
  | .duringTransaction => .next (takeReset s true)

/-- The state with the request of an instruction's bits as the next one that `step` accepts. -/
def State.withFetchWord (s : State) (nbits w : Nat) : State := s.presentFirst (requestOfWord nbits w)

end Sys2Proof.Machine
end

