-- ==== Sys2Proof/Safety.lean ====
section
/-! DEFINITION. The terms that statements about runs use: the invariants of the state (spec/10_state.md R19, R20, R30,
R34, R42), what a command leaves unchanged, and the erasure of what no rule reads (R23, R33). -/

namespace Sys2Proof.Machine

/-! ## Invariants -/

/-- The cursor's range `1..N+1` (R30). -/
def CursorInRange (s : State) : Prop := 1 ≤ s.cursor.toNat ∧ s.cursor.toNat ≤ Config.slotCount + 1

/-- `slot[0]`, the sentinel, is never written after reset (R19). -/
def SentinelClear (s : State) : Prop := s.slot 0 = Slot.zero

/-- Bits 7..2 of every `state` byte are 0 (R20). -/
def StateBitsLegal (s : State) : Prop := ∀ i, (s.slot i).state.toNat < 4

/-- `blockLoad.status` is 0, 1 or 2; the index is 0 with status 0 and 2 (R34) and a slot's with status 1 (R152). -/
def BlockLoadLegal (s : State) : Prop :=
  (s.blockLoad.status = 0 ∧ s.blockLoad.index = 0)
    ∨ (s.blockLoad.status = 2 ∧ s.blockLoad.index = 0)
    ∨ (s.blockLoad.status = 1 ∧ 1 ≤ s.blockLoad.index.toNat ∧ s.blockLoad.index.toNat ≤ Config.slotCount)

/-- What every step keeps, whatever the environment presents. -/
structure Inv (s : State) : Prop where
  cursorInRange : CursorInRange s
  sentinelClear : SentinelClear s
  stateBitsLegal : StateBitsLegal s
  blockLoadLegal : BlockLoadLegal s

/-- The cursor invariant of R42: no slot with an index in `1..cursor − 1` is free. -/
def CursorSound (s : State) : Prop := ∀ i, 1 ≤ i → i < s.cursor.toNat → (s.slot i).state ≠ 0

/-- No slot below the cursor is playing and not allocated, `0b10`: R42's condition for a stop to keep its
invariant. -/
def NoneStranded (s : State) : Prop := ∀ i, 1 ≤ i → i < s.cursor.toNat → (s.slot i).state ≠ 0b10

/-! ## Frames -/

/-- The device-wide registers are unchanged. -/
structure SameRegisters (s t : State) : Prop where
  cursor : t.cursor = s.cursor
  pool : t.pool = s.pool
  paused : t.paused = s.paused
  deviceGain : t.deviceGain = s.deviceGain
  blockLoad : t.blockLoad = s.blockLoad

/-- The request port and the reset input are unchanged. -/
structure SamePorts (s t : State) : Prop where
  pending : t.pending = s.pending
  resetInput : t.resetInput = s.resetInput

/-! ## What a tick does to one slot -/

/-- A record after a tick at `now` that is not paused: a visited one has its elapsed time assigned (R148), any other
is untouched (R146). -/
def Slot.ticked (now : Stamp) (r : Slot) : Slot :=
  if r.visited then { r with elapsedTime := elapsedSince now r.startTime } else r

/-- What a record adds to an axis sum in a tick that is not paused: its contribution where it is visited, 0 where it
is not (R142). -/
def slotShare (c : Config) (a : Axis) (smp : SampleRecord) (r : Slot) : Int :=
  if r.visited then contribution c r a smp else 0

/-- An axis sum of a tick (R142): over the slots 1..N, nothing while paused (R143). -/
def axisSum (c : Config) (a : Axis) (smp : SampleRecord) (s : State) : Int :=
  if s.paused then 0 else ((List.range' 1 14).map fun i => slotShare c a smp (s.slot i)).sum

/-! ## The condition law over integers -/

/-- The condition law with every fraction brought over the common denominator `10000 × |xmax|`: no rational is formed
and the one division truncates (R136). -/
def integerCond (r : Slot) (a : Axis) (x xmax : Int) : Int :=
  let b := r.conditionBlock a
  let x' := if xmax < 0 then -x else x
  let m := if xmax < 0 then -xmax else xmax
  let lo := signed b.cpOffset - unsigned b.deadBand
  let hi := signed b.cpOffset + unsigned b.deadBand
  let f :=
    if x' < lo * m then
      max ((10000 * x' - lo * m) * signed b.negativeCoefficient) (-(unsigned b.negativeSaturation * (10000 * m)))
    else if hi * m < x' then
      min ((10000 * x' - hi * m) * signed b.positiveCoefficient) (unsigned b.positiveSaturation * (10000 * m))
    else 0
  tdiv (-f * (r.gain.toNat : Int)) (255 * (10000 * m))

/-! ## The inertia rule -/

/-- What R139 says every `INERTIA_RULE` must keep: the value is a condition-law result on the normalised acceleration, or
on its absolute value, with a sign (or silence) that is chosen from the axis and its samples alone; and it is 0 where the
acceleration maximum is 0. -/
def KeepsConditionLaw (rule : Slot → Axis → SampleRecord → Int) : Prop :=
  ∃ (factor : Axis → SampleRecord → Int) (n : Axis → SampleRecord → Rat),
    (∀ a smp, factor a smp = -1 ∨ factor a smp = 0 ∨ factor a smp = 1)
      ∧ (∀ a smp, n a smp = (smp.inertiaAcc.toInt : Rat) / (smp.inertiaMax.toInt : Rat)
          ∨ n a smp = |(smp.inertiaAcc.toInt : Rat) / (smp.inertiaMax.toInt : Rat)|)
      ∧ ∀ (r : Slot) (a : Axis) (smp : SampleRecord),
        rule r a smp = if smp.inertiaMax.toInt = 0 then 0 else factor a smp * condN r a (n a smp)

/-! ## The commands that can stop a slot -/

/-- The commands that run `stop` or `stopAll` (R91, R92): Effect Operation codes 2 and 3, Device Control code 3. -/
def stopsSlots : Instr → Bool
  | .setEffect .. => false
  | .setEnvelope .. => false
  | .setCondition .. => false
  | .setPeriodic .. => false
  | .setConstant .. => false
  | .setRamp .. => false
  | .custom7 => false
  | .custom8 => false
  | .custom14 => false
  | .effectStart .. => false
  | .effectStartSolo .. => true
  | .effectStop .. => true
  | .blockFreeAll => false
  | .blockFree _ => false
  | .dcEnableActuators => false
  | .dcDisableActuators => false
  | .dcStopAll => true
  | .dcFreeAll => false
  | .dcPause => false
  | .dcContinue => false
  | .deviceGain _ => false
  | .ignored .. => false
  | .create => false
  | .getBlockLoad => false
  | .getPool => false
  | .tick .. => false

/-! ## Commands that are plain overwrites -/

/-- The commands that R53 calls idempotent: Set Effect, Set Envelope, Set Periodic, Set Constant Force, Set Ramp Force,
Device Gain, Block Free, and Device Control codes 4, 5 and 6. -/
def plainOverwrite : Instr → Bool
  | .setEffect .. => true
  | .setEnvelope .. => true
  | .setCondition .. => false
  | .setPeriodic .. => true
  | .setConstant .. => true
  | .setRamp .. => true
  | .custom7 => false
  | .custom8 => false
  | .custom14 => false
  | .effectStart .. => false
  | .effectStartSolo .. => false
  | .effectStop .. => false
  | .blockFreeAll => true
  | .blockFree _ => true
  | .dcEnableActuators => false
  | .dcDisableActuators => false
  | .dcStopAll => false
  | .dcFreeAll => true
  | .dcPause => true
  | .dcContinue => true
  | .deviceGain _ => true
  | .ignored .. => false
  | .create => false
  | .getBlockLoad => false
  | .getPool => false
  | .tick .. => false

/-! ## Erasures -/

/-- The state without the three fields of its records that no rule reads (R23). -/
def State.eraseDirections (s : State) : State := { s with slots := s.slots.map Slot.eraseDirections }

/-- An outcome whose next state, where there is one, is changed by `f`. -/
def mapNext (f : State → State) (r : Result) : Result :=
  match r with
  | .next t => .next (f t)
  | .fault e => .fault e
  | .refused e => .refused e

end Sys2Proof.Machine
end

