-- ==== Sys2Proof/Certificates/Slice0/Obligations.lean ====
section
/-! DEFINITION. The statements for the provers, from the numbered rules of spec/. In every statement `F` stands for
`Config.implementation.footprint`, whose value is open (R7). An index byte is in range when it is 1..14 (R46). -/

open Sys2Proof Sys2Proof.Machine

/-! ## Encoding -/

/-- The spec's own example reports (R96 to R101, R105, R108, R109, R114, R116, R117; 95_test_vectors.md D3, D4) decode
to the commands they are examples of. -/
def Obligations.ExampleReportsDecode : Prop :=
  decodeReport (bytesOfHex 0x010104D007FF00000000000000000000) 0 = .setEffect 1 4 2000 255 0 0 0
    ∧ decodeReport (bytesOfHex 0x0201000000006400C800000000000000) 0 = .setEnvelope 1 0 0 100 200
    ∧ decodeReport (bytesOfHex 0x0302010CFE48F4581BFFFF0100140000) 0
        = .setCondition 2 1 (BitVec.ofInt 16 (-500)) (BitVec.ofInt 16 (-3000)) 7000 65535 1 20
    ∧ decodeReport (bytesOfHex 0x040330F8D4FE2823FA00000000000000) 0
        = .setPeriodic 3 (BitVec.ofInt 16 (-2000)) (BitVec.ofInt 16 (-300)) 9000 250
    ∧ decodeReport (bytesOfHex 0x050178EC000000000000000000000000) 0 = .setConstant 1 (BitVec.ofInt 16 (-5000))
    ∧ decodeReport (bytesOfHex 0x060118FCE80300000000000000000000) 0 = .setRamp 1 (BitVec.ofInt 16 (-1000)) 1000
    ∧ decodeReport (bytesOfHex 0x0A010103000000000000000000000000) 7000 = .effectStart 1 3 7000
    ∧ decodeReport (bytesOfHex 0x0BFF0000000000000000000000000000) 0 = .blockFreeAll
    ∧ decodeReport (bytesOfHex 0x0B020000000000000000000000000000) 0 = .blockFree 2
    ∧ decodeReport (bytesOfHex 0x0C050000000000000000000000000000) 0 = .dcPause
    ∧ decodeReport (bytesOfHex 0x0D800000000000000000000000000000) 0 = .deviceGain 128
    ∧ decodeReport (bytesOfHex 0x09010000000000000000000000000000) 0 = .ignored 9 1 0

/-- R66 to R77: each report's fields sit at the byte offsets of its layout, little-endian, and none is scaled. -/
def Obligations.ReportFieldsSitAtTheirOffsets : Prop :=
  (∀ lo hi : Byte, (le16 lo hi).toNat = lo.toNat + 256 * hi.toNat)
    ∧ ∀ (b : Vector Byte 16) (now : Stamp),
      (b[0] = 1 → decodeReport b now = .setEffect b[1] b[2] (le16 b[3] b[4]) b[5] b[6] b[7] b[8])
        ∧ (b[0] = 2 → decodeReport b now
            = .setEnvelope b[1] (le16 b[2] b[3]) (le16 b[4] b[5]) (le16 b[6] b[7]) (le16 b[8] b[9]))
        ∧ (b[0] = 3 → decodeReport b now
            = .setCondition b[1] b[2] (le16 b[3] b[4]) (le16 b[5] b[6]) (le16 b[7] b[8]) (le16 b[9] b[10])
                (le16 b[11] b[12]) (le16 b[13] b[14]))
        ∧ (b[0] = 4 → decodeReport b now
            = .setPeriodic b[1] (le16 b[2] b[3]) (le16 b[4] b[5]) (le16 b[6] b[7]) (le16 b[8] b[9]))
        ∧ (b[0] = 5 → decodeReport b now = .setConstant b[1] (le16 b[2] b[3]))
        ∧ (b[0] = 6 → decodeReport b now = .setRamp b[1] (le16 b[2] b[3]) (le16 b[4] b[5]))
        ∧ (b[0] = 10 → (b[2] = 1 → decodeReport b now = .effectStart b[1] b[3] now)
            ∧ (b[2] = 2 → decodeReport b now = .effectStartSolo b[1] b[3] now)
            ∧ (b[2] = 3 → decodeReport b now = .effectStop b[1] b[3]))
        ∧ (b[0] = 11 → decodeReport b now = if b[1] = 255 then .blockFreeAll else .blockFree b[1])
        ∧ (b[0] = 12 → (b[1] = 3 → decodeReport b now = .dcStopAll) ∧ (b[1] = 4 → decodeReport b now = .dcFreeAll)
            ∧ (b[1] = 5 → decodeReport b now = .dcPause) ∧ (b[1] = 6 → decodeReport b now = .dcContinue))
        ∧ (b[0] = 13 → decodeReport b now = .deviceGain b[1])

/-- R66 to R80: every operand of every command survives encoding and decoding, at every value, and the encoded report
is admitted by the command's own row of the opcode table before any other. -/
def Obligations.DecodeInvertsEncode : Prop :=
  ∀ i : Instr, i.wellFormed = true →
    decode (encode i) = .ok i ∧ ((encode i).kind = 0 → tableMnemonic (encode i).report = some i.mnemonic)

/-- R80: what the decoder gives is always a command of the map. -/
def Obligations.DecodedCommandsAreWellFormed : Prop :=
  ∀ (r : Request) (i : Instr), decode r = .ok i → i.wellFormed = true

/-- R80, R85: the decoder selects the row of the opcode table that the table's own matching selects: "Rows are tried
from the top; the first that matches wins; a report that matches no row matches the last." -/
def Obligations.DecoderFollowsTheOpcodeTable : Prop :=
  ∀ (b : Vector Byte 16) (now : Stamp), tableMnemonic b = some (decodeReport b now).mnemonic

/-- R59: the kinds 1 to 4 name their commands whatever stands on the operands they do not have, and the kinds 5, 6
and 7 name none. -/
def Obligations.KindsSelectTransactions : Prop :=
  ∀ r : Request,
    (r.kind = 0 → decode r = .ok (decodeReport r.report r.now)) ∧ (r.kind = 1 → decode r = .ok .create)
      ∧ (r.kind = 2 → decode r = .ok .getBlockLoad) ∧ (r.kind = 3 → decode r = .ok .getPool)
      ∧ (r.kind = 4 → decode r = .ok (.tick r.now r.samples0 r.samples1))
      ∧ (5 ≤ r.kind.toNat → decode r = .error (.reservedKind r.kind))

/-- R61: "the bytes that a tag's layout (section 2) does not name are ignored, whatever they hold", and the clock
operand is ignored by every report but the two starts. -/
def Obligations.UnnamedBytesAreIgnored : Prop :=
  ∀ (b b' : Vector Byte 16) (now now' : Stamp) (s : State),
    (∀ k (h : k < 16), k < layoutLength b[0] → b[k] = b'[k]) →
    (now = now' ∨ ¬ (b[0] = 10 ∧ (b[2] = 1 ∨ b[2] = 2))) →
    exec (decodeReport b now) s = exec (decodeReport b' now') s

/-! ## Steps -/

/-- A step runs the decoded command: with the reset input released, the step of a core that accepts `r` next is the
meaning of the command that `r` decodes to, on the state without that request (R14, R54). -/
def Obligations.StepRunsTheDecodedCommand : Prop :=
  ∀ (s : State) (r : Request) (rest : List Request) (i : Instr),
    s.resetInput = .released → acceptNext s.pending = some (r, rest) → decode r = .ok i →
    step s = exec i (s.setPending rest)

/-- The request placed by `withFetchWord` is the one the very next step runs, from every state (the model's own placing
of a request, notes/assumptions/1.md and 7.md). -/
def Obligations.FetchWordRunsNext : Prop :=
  ∀ (s : State) (nbits w : Nat) (i : Instr), decodeTableWord nbits w = some i →
    ∃ rest, step (s.withFetchWord nbits w) = exec i { s with pending := rest, resetInput := .released }

/-- R54, R163: the first pending request that is no tick is served before a pending tick. That of several pending ticks
the first is served, and that what is not served stays pending in its order, is the model's choice
(notes/assumptions/1.md): the rules speak of one tick. -/
def Obligations.HostRequestsBeforeTicks : Prop :=
  (∀ (s : State) (ticks rest : List Request) (r : Request) (i : Instr),
      s.resetInput = .released → s.pending = ticks ++ r :: rest → (∀ q ∈ ticks, q.kind = 4) → r.kind ≠ 4 →
      decode r = .ok i → step s = exec i (s.setPending (ticks ++ rest)))
    ∧ ∀ (s : State) (rest : List Request) (r : Request) (i : Instr),
      s.resetInput = .released → s.pending = r :: rest → (∀ q ∈ r :: rest, q.kind = 4) → decode r = .ok i →
      step s = exec i (s.setPending rest)

/-- R60: "A request of kind 5, 6 or 7 is answered with an empty response and changes no state." -/
def Obligations.ReservedKindChangesNothing : Prop :=
  ∀ (s : State) (r : Request) (rest : List Request),
    s.resetInput = .released → acceptNext s.pending = some (r, rest) → (r.kind = 5 ∨ r.kind = 6 ∨ r.kind = 7) →
    step s = .next { s with pending := rest, response := some .empty }

/-- R43, R169: after reset every field of every record is 0, the cursor is 1, the pool full, everything else 0. -/
def Obligations.ResetValues : Prop :=
  (∀ k, State.reset.slot k = Slot.zero)
    ∧ Slot.zero = ⟨0, 0, 0, 0, 0, 0, 0, 0, 0, 0, 0, 0, 0, 0, 0, 0, 0, 0, 0, ⟨0, 0, 0, 0, 0, 0⟩, ⟨0, 0, 0, 0, 0, 0⟩, 0⟩
    ∧ State.reset.cursor = 1 ∧ State.reset.pool = BitVec.ofNat 16 (14 * Config.implementation.footprint)
    ∧ State.reset.paused = false ∧ State.reset.deviceGain = 0 ∧ State.reset.blockLoad.index = 0
    ∧ State.reset.blockLoad.status = 0

/-- R169: the reset event gives the state after reset from every state; a transaction in progress is abandoned without
a response. That the requests not yet accepted stay pending, and that there may be no transaction to abandon, is the
model's choice (notes/assumptions/3.md). -/
def Obligations.ResetEvent : Prop :=
  ∀ s : State,
    (s.resetInput = .betweenTransactions → step s = .next { State.reset with pending := s.pending })
      ∧ (∀ (r : Request) (rest : List Request),
        s.resetInput = .duringTransaction → acceptNext s.pending = some (r, rest) →
        step s = .next { State.reset with pending := rest })
      ∧ (s.resetInput = .duringTransaction → s.pending = [] → step s = .next State.reset)

/-- R156: "Every transaction completes and is answered; after any transaction the core accepts the next one." Every
step of every state has a next state; a step that has a request to serve answers it and takes that one request. That a
step with nothing pending leaves everything but the response port as it was is the model's choice
(notes/assumptions/1.md), made so that the core "has no step that is not a response to a transaction" (R15). -/
def Obligations.EveryTransactionIsAnswered : Prop :=
  ∀ s : State, ∃ t, step s = .next t
    ∧ (s.resetInput = .released → s.pending ≠ [] →
        t.response.isSome = true ∧ t.pending.length + 1 = s.pending.length ∧ t.resetInput = .released)
    ∧ (s.resetInput = .released → s.pending = [] → t = { s with response := none })

/-! ## Parameter-update reports -/

/-- R96: SET_EFFECT overwrites six fields of the record its index names, whatever its state; out of range it does
nothing. -/
def Obligations.SetEffectOverwrites : Prop :=
  ∀ (index effectType : Byte) (duration : Half) (gain enableAxis directionX directionY : Byte) (s : State), ∃ t,
    exec (.setEffect index effectType duration gain enableAxis directionX directionY) s = .next t
      ∧ (∀ k, t.slot k = if (1 ≤ index.toNat ∧ index.toNat ≤ 14) ∧ k = index.toNat
          then { s.slot k with effectType := effectType, duration := duration, gain := gain,
                               enableAxis := enableAxis, directionX := directionX, directionY := directionY }
          else s.slot k)
      ∧ SameRegisters s t ∧ SamePorts s t ∧ t.response = some .empty

/-- R97: SET_ENVELOPE overwrites the four envelope fields. -/
def Obligations.SetEnvelopeOverwrites : Prop :=
  ∀ (index : Byte) (attackLevel fadeLevel attackTime fadeTime : Half) (s : State), ∃ t,
    exec (.setEnvelope index attackLevel fadeLevel attackTime fadeTime) s = .next t
      ∧ (∀ k, t.slot k = if (1 ≤ index.toNat ∧ index.toNat ≤ 14) ∧ k = index.toNat
          then { s.slot k with attackLevel := attackLevel, fadeLevel := fadeLevel, attackTime := attackTime,
                               fadeTime := fadeTime }
          else s.slot k)
      ∧ SameRegisters s t ∧ SamePorts s t ∧ t.response = some .empty

/-- R98: SET_CONDITION overwrites the block that the block offset names and counts the report modulo 256; an index out
of range or a block offset above 1 makes the whole report ignored, the count included. -/
def Obligations.SetConditionOverwritesAndCounts : Prop :=
  ∀ (index blockOffset : Byte) (cpOffset posCoef negCoef posSat negSat deadBand : Half) (s : State), ∃ t,
    exec (.setCondition index blockOffset cpOffset posCoef negCoef posSat negSat deadBand) s = .next t
      ∧ (∀ k, t.slot k
          = if (1 ≤ index.toNat ∧ index.toNat ≤ 14) ∧ k = index.toNat ∧ blockOffset.toNat ≤ 1
            then { s.slot k with
              cond0 := if blockOffset = 0 then ⟨cpOffset, posCoef, negCoef, posSat, negSat, deadBand⟩
                else (s.slot k).cond0
              cond1 := if blockOffset = 1 then ⟨cpOffset, posCoef, negCoef, posSat, negSat, deadBand⟩
                else (s.slot k).cond1
              conditionBlocksCount := BitVec.ofNat 8 ((s.slot k).conditionBlocksCount.toNat + 1) }
            else s.slot k)
      ∧ SameRegisters s t ∧ SamePorts s t ∧ t.response = some .empty

/-- R99: SET_PERIODIC overwrites the four periodic fields. -/
def Obligations.SetPeriodicOverwrites : Prop :=
  ∀ (index : Byte) (magnitude offset phase period : Half) (s : State), ∃ t,
    exec (.setPeriodic index magnitude offset phase period) s = .next t
      ∧ (∀ k, t.slot k = if (1 ≤ index.toNat ∧ index.toNat ≤ 14) ∧ k = index.toNat
          then { s.slot k with magnitude := magnitude, offset := offset, phase := phase, period := period }
          else s.slot k)
      ∧ SameRegisters s t ∧ SamePorts s t ∧ t.response = some .empty

/-- R100: SET_CONSTANT overwrites the magnitude alone. -/
def Obligations.SetConstantOverwrites : Prop :=
  ∀ (index : Byte) (magnitude : Half) (s : State), ∃ t,
    exec (.setConstant index magnitude) s = .next t
      ∧ (∀ k, t.slot k = if (1 ≤ index.toNat ∧ index.toNat ≤ 14) ∧ k = index.toNat
          then { s.slot k with magnitude := magnitude } else s.slot k)
      ∧ SameRegisters s t ∧ SamePorts s t ∧ t.response = some .empty

/-- R101: SET_RAMP overwrites the two ramp fields and leaves the magnitude. -/
def Obligations.SetRampOverwrites : Prop :=
  ∀ (index : Byte) (startMagnitude endMagnitude : Half) (s : State), ∃ t,
    exec (.setRamp index startMagnitude endMagnitude) s = .next t
      ∧ (∀ k, t.slot k = if (1 ≤ index.toNat ∧ index.toNat ≤ 14) ∧ k = index.toNat
          then { s.slot k with startMagnitude := startMagnitude, endMagnitude := endMagnitude } else s.slot k)
      ∧ SameRegisters s t ∧ SamePorts s t ∧ t.response = some .empty

/-- R53: the commands that are plain overwrites are idempotent: run twice they leave what they leave run once. -/
def Obligations.PlainOverwritesAreIdempotent : Prop :=
  ∀ (i : Instr) (s : State), plainOverwrite i = true → ∃ t, exec i s = .next t ∧ exec i t = .next t

/-! ## Reports without effect -/

/-- R102, R103, R104, R110, R111: the three custom tags and the two actuator controls, whatever their other bytes,
are accepted and change no state. -/
def Obligations.AcceptedReportsChangeNothing : Prop :=
  ∀ (b : Vector Byte 16) (now : Stamp) (s : State),
    (b[0] = 7 → decodeReport b now = .custom7) ∧ (b[0] = 8 → decodeReport b now = .custom8)
      ∧ (b[0] = 14 → decodeReport b now = .custom14)
      ∧ (b[0] = 12 → b[1] = 1 → decodeReport b now = .dcEnableActuators)
      ∧ (b[0] = 12 → b[1] = 2 → decodeReport b now = .dcDisableActuators)
      ∧ exec .custom7 s = .next { s with response := some .empty }
      ∧ exec .custom8 s = .next { s with response := some .empty }
      ∧ exec .custom14 s = .next { s with response := some .empty }
      ∧ exec .dcEnableActuators s = .next { s with response := some .empty }
      ∧ exec .dcDisableActuators s = .next { s with response := some .empty }

/-- R117: a report with tag 0, 9 or 15..255, with tag 10 and operation 0 or 4..255, or with tag 12 and control 0 or
7..255 is IGNORED, and no state is written. -/
def Obligations.IgnoredReportsChangeNothing : Prop :=
  (∀ (b : Vector Byte 16) (now : Stamp),
      (b[0] = 0 ∨ b[0] = 9 ∨ 15 ≤ b[0].toNat ∨ (b[0] = 10 ∧ (b[2] = 0 ∨ 4 ≤ b[2].toNat))
        ∨ (b[0] = 12 ∧ (b[1] = 0 ∨ 7 ≤ b[1].toNat))) →
      decodeReport b now = .ignored b[0] b[1] b[2])
    ∧ ∀ (tag byte1 byte2 : Byte) (s : State),
      exec (.ignored tag byte1 byte2) s = .next { s with response := some .empty }

/-! ## Effect Operation, Block Free, Device Control, Device Gain -/

/-- R105: EFFECT_START multiplies the stored duration by a loop count 1..254 modulo 2^16, makes it 0x7FFF for 255,
leaves it for 0; then sets the playing bit, zeroes the elapsed time and stamps the start time. Out of range it does
nothing. -/
def Obligations.EffectStartLoopsAndStarts : Prop :=
  ∀ (index loopCount : Byte) (now : Stamp) (s : State), ∃ t,
    exec (.effectStart index loopCount now) s = .next t
      ∧ (∀ k, t.slot k = if (1 ≤ index.toNat ∧ index.toNat ≤ 14) ∧ k = index.toNat
          then { s.slot k with
            duration := if loopCount = 0 then (s.slot k).duration
              else if loopCount = 255 then 0x7FFF
              else BitVec.ofNat 16 ((s.slot k).duration.toNat * loopCount.toNat)
            state := (s.slot k).state ||| 0b10
            elapsedTime := 0
            startTime := now }
          else s.slot k)
      ∧ SameRegisters s t ∧ SamePorts s t ∧ t.response = some .empty

/-- R106: EFFECT_START_SOLO clears every playing bit and credits the pool N + 1 times, even with an index out of
range; then it starts the target, with no loop-count arithmetic. -/
def Obligations.EffectStartSoloStopsAllThenStarts : Prop :=
  ∀ (index loopCount : Byte) (now : Stamp) (s : State), ∃ t,
    exec (.effectStartSolo index loopCount now) s = .next t
      ∧ (∀ k, t.slot k = if (1 ≤ index.toNat ∧ index.toNat ≤ 14) ∧ k = index.toNat
          then { s.slot k with state := ((s.slot k).state &&& 0b01) ||| 0b10, elapsedTime := 0, startTime := now }
          else { s.slot k with state := (s.slot k).state &&& 0b01 })
      ∧ t.pool = BitVec.ofNat 16 (s.pool.toNat + 15 * Config.implementation.footprint)
      ∧ t.cursor = s.cursor ∧ t.paused = s.paused ∧ t.deviceGain = s.deviceGain ∧ t.blockLoad = s.blockLoad
      ∧ SamePorts s t ∧ t.response = some .empty

/-- R107, R91: EFFECT_STOP clears the playing bit of an in-range record, whatever its state, and credits the pool by one
footprint modulo 2^16; out of range it does neither. -/
def Obligations.EffectStopClearsAndCredits : Prop :=
  ∀ (index loopCount : Byte) (s : State), ∃ t,
    exec (.effectStop index loopCount) s = .next t
      ∧ (∀ k, t.slot k = if (1 ≤ index.toNat ∧ index.toNat ≤ 14) ∧ k = index.toNat
          then { s.slot k with state := (s.slot k).state &&& 0b01 } else s.slot k)
      ∧ t.pool = (if 1 ≤ index.toNat ∧ index.toNat ≤ 14
          then BitVec.ofNat 16 (s.pool.toNat + Config.implementation.footprint) else s.pool)
      ∧ t.cursor = s.cursor ∧ t.paused = s.paused ∧ t.deviceGain = s.deviceGain ∧ t.blockLoad = s.blockLoad
      ∧ SamePorts s t ∧ t.response = some .empty

/-- R108, R113, R89: both free-all commands clear every state, set the cursor to 1 and the pool to its full capacity,
and leave the parameters, the pause flag, the device gain and the block load record. -/
def Obligations.FreeAllCommandsRestoreTheAllocator : Prop :=
  ∀ (i : Instr) (s : State), i = .blockFreeAll ∨ i = .dcFreeAll → ∃ t,
    exec i s = .next t ∧ (∀ k, t.slot k = { s.slot k with state := 0 }) ∧ t.cursor = 1
      ∧ t.pool = BitVec.ofNat 16 (14 * Config.implementation.footprint)
      ∧ t.paused = s.paused ∧ t.deviceGain = s.deviceGain ∧ t.blockLoad = s.blockLoad
      ∧ SamePorts s t ∧ t.response = some .empty

/-- R109, R88: BLOCK_FREE clears the state of an in-range record, and the freed index becomes the cursor if it is lower;
the pool and the parameters stay; out of range it does nothing. -/
def Obligations.BlockFreeLowersTheCursor : Prop :=
  ∀ (index : Byte) (s : State), ∃ t,
    exec (.blockFree index) s = .next t
      ∧ (∀ k, t.slot k = if (1 ≤ index.toNat ∧ index.toNat ≤ 14) ∧ k = index.toNat
          then { s.slot k with state := 0 } else s.slot k)
      ∧ t.cursor = (if (1 ≤ index.toNat ∧ index.toNat ≤ 14) ∧ index.toNat < s.cursor.toNat then index else s.cursor)
      ∧ t.pool = s.pool ∧ t.paused = s.paused ∧ t.deviceGain = s.deviceGain ∧ t.blockLoad = s.blockLoad
      ∧ SamePorts s t ∧ t.response = some .empty

/-- R112, R92: DC_STOP_ALL clears the playing bit of every record and credits the pool N + 1 times, whatever the slots
held; nothing else changes. -/
def Obligations.StopAllCreditsEverySlot : Prop :=
  ∀ s : State, ∃ t, exec .dcStopAll s = .next t
      ∧ (∀ k, t.slot k = { s.slot k with state := (s.slot k).state &&& 0b01 })
      ∧ t.pool = BitVec.ofNat 16 (s.pool.toNat + 15 * Config.implementation.footprint)
      ∧ t.cursor = s.cursor ∧ t.paused = s.paused ∧ t.deviceGain = s.deviceGain ∧ t.blockLoad = s.blockLoad
      ∧ SamePorts s t ∧ t.response = some .empty

/-- R114, R115, R116: DC_PAUSE sets the pause flag, DC_CONTINUE clears it, DEVICE_GAIN stores its byte, and nothing else
changes. -/
def Obligations.DeviceRegistersAreWritten : Prop :=
  ∀ (gain : Byte) (s : State),
    exec .dcPause s = .next { s with paused := true, response := some .empty }
      ∧ exec .dcContinue s = .next { s with paused := false, response := some .empty }
      ∧ exec (.deviceGain gain) s = .next { s with deviceGain := gain, response := some .empty }

/-! ## Allocation and feature reads -/

/-- R152, R87, R158: with an eligible slot at or above the cursor, CREATE zeroes and allocates the first such slot, debits
the pool by one footprint modulo 2^16, moves the cursor past the occupied run, records the outcome and returns it; with
none it changes the block load record alone, to index 0 and status 2, and returns it: the table, the cursor and the pool
are untouched. -/
def Obligations.CreateAllocatesOrReportsCapacity : Prop :=
  (∀ (s : State) (id : Nat),
      s.cursor.toNat ≤ id → id ≤ 14 → (s.slot id).state = 0 →
      (∀ j, s.cursor.toNat ≤ j → j < id → (s.slot j).state ≠ 0) →
      ∃ t, exec .create s = .next t
        ∧ (∀ k, t.slot k = if k = id then { Slot.zero with state := 0b01 } else s.slot k)
        ∧ t.pool = s.pool - BitVec.ofNat 16 Config.implementation.footprint
        ∧ id < t.cursor.toNat ∧ t.cursor.toNat ≤ 15
        ∧ (∀ j, id < j → j < t.cursor.toNat → (s.slot j).state ≠ 0)
        ∧ (t.cursor.toNat ≤ 14 → (s.slot t.cursor.toNat).state = 0)
        ∧ t.blockLoad = ⟨BitVec.ofNat 8 id, 1⟩ ∧ t.response = some (.created (BitVec.ofNat 8 id) 1 t.pool)
        ∧ t.paused = s.paused ∧ t.deviceGain = s.deviceGain ∧ SamePorts s t)
    ∧ ∀ s : State, (∀ j, s.cursor.toNat ≤ j → j ≤ 14 → (s.slot j).state ≠ 0) →
      exec .create s = .next { s with blockLoad := ⟨0, 2⟩, response := some (.created 0 2 s.pool) }

/-- R153, R154: GET_BLOCK_LOAD returns the five bytes of the block load record, the pool counter live and low byte first;
GET_POOL returns five constants of the configuration, whatever the state; neither changes any state. -/
def Obligations.FeatureReadsReturnTheirRecords : Prop :=
  ∀ s : State,
    exec .getBlockLoad s = .next { s with response := some (.feature
      #v[Config.implementation.blockLoadReportId, s.blockLoad.index, s.blockLoad.status,
        BitVec.ofNat 8 (s.pool.toNat % 256), BitVec.ofNat 8 (s.pool.toNat / 256)]) }
      ∧ exec .getPool s = .next { s with response := some (.feature
        #v[Config.implementation.poolReportId, BitVec.ofNat 8 (14 * Config.implementation.footprint % 256),
          BitVec.ofNat 8 (14 * Config.implementation.footprint / 256), 14, Config.implementation.memMgmt]) }

/-- R42, R87: while no slot below the cursor is free, CREATE returns the lowest free index there is. -/
def Obligations.CreateReturnsTheLowestFreeIndex : Prop :=
  ∀ (s : State) (id : Nat), CursorInRange s → CursorSound s → 1 ≤ id → id ≤ 14 → (s.slot id).state = 0 →
    (∀ j, 1 ≤ j → j < id → (s.slot j).state ≠ 0) →
    ∃ t, exec .create s = .next t ∧ t.response = some (.created (BitVec.ofNat 8 id) 1 t.pool)

/-- R93 (b): freeing an index and creating returns that index, unless a lower index is also free. -/
def Obligations.FreeThenCreateReusesTheIndex : Prop :=
  ∀ (s : State) (index : Byte), CursorInRange s → CursorSound s → 1 ≤ index.toNat → index.toNat ≤ 14 →
    (∀ j, 1 ≤ j → j < index.toNat → (s.slot j).state ≠ 0) →
    ∃ t u, exec (.blockFree index) s = .next t ∧ exec .create t = .next u
      ∧ u.response = some (.created index 1 u.pool) ∧ u.slot index.toNat = { Slot.zero with state := 0b01 }

/-- R93 (a): from reset, fourteen CREATEs return the indices 1 to 14 with the pool falling by one footprint each, to 0;
the fifteenth reports capacity exceeded and leaves the table, the cursor and the pool as they were. -/
def Obligations.FourteenAllocationsFromReset : Prop :=
  ∃ run : Nat → State, run 0 = State.reset
    ∧ (∀ k, k < 14 → exec .create (run k) = .next (run (k + 1))
        ∧ (run (k + 1)).response = some (.created (BitVec.ofNat 8 (k + 1)) 1
            (BitVec.ofNat 16 ((13 - k) * Config.implementation.footprint))))
    ∧ exec .create (run 14)
        = .next { run 14 with blockLoad := ⟨0, 2⟩, response := some (.created 0 2 0) }

/-! ## The tick -/

/-- R142, R143, R145, R148: TICK completes in every state. While not paused it serves the slots 1..14 that are allocated,
playing and not past their duration (or infinite): each one's elapsed time becomes the low 16 bits of `now − startTime`;
nothing else is written. The two forces are the output stage of the two axis sums, which run over the same slots. What a
slot contributes is R147's table: the engine of its type (R137, R138, R139, R140) times that type's gain, and 0 for
Custom and the codes that name no type. -/
def Obligations.TickServesVisitedSlots : Prop :=
  (∀ (now : Stamp) (samples0 samples1 : SampleRecord) (s : State), ∃ t,
    exec (.tick now samples0 samples1) s = .next t
      ∧ (∀ k, t.slot k
          = if s.paused = false ∧ 1 ≤ k ∧ k ≤ 14
              ∧ (s.slot k).state.getLsbD 0 = true ∧ (s.slot k).state.getLsbD 1 = true
              ∧ ((s.slot k).elapsedTime.toNat ≤ (s.slot k).duration.toNat ∨ (s.slot k).duration = 0x7FFF)
            then { s.slot k with elapsedTime := BitVec.ofNat 16 (now - (s.slot k).startTime).toNat }
            else s.slot k)
      ∧ t.response = some (.forces
          (forceWord (outputForce Config.implementation (axisSum Config.implementation .axis0 samples0 s)))
          (forceWord (outputForce Config.implementation (axisSum Config.implementation .axis1 samples1 s))))
      ∧ SameRegisters s t ∧ SamePorts s t)
    ∧ (∀ r : Slot, r.visited = true
        ↔ r.state.getLsbD 0 = true ∧ r.state.getLsbD 1 = true
          ∧ (r.elapsedTime.toNat ≤ r.duration.toNat ∨ r.duration = 0x7FFF))
    ∧ ∀ (c : Config) (r : Slot) (a : Axis) (smp : SampleRecord),
      (r.effectType = 1 → contribution c r a smp = wave c r * (c.typeGain .constant).toNat)
        ∧ (r.effectType = 2 → contribution c r a smp = wave c r * (c.typeGain .ramp).toNat)
        ∧ (r.effectType = 3 → contribution c r a smp = wave c r * (c.typeGain .square).toNat)
        ∧ (r.effectType = 4 → contribution c r a smp = wave c r * (c.typeGain .sine).toNat)
        ∧ (r.effectType = 5 → contribution c r a smp = wave c r * (c.typeGain .triangle).toNat)
        ∧ (r.effectType = 6 → contribution c r a smp = wave c r * (c.typeGain .sawtoothDown).toNat)
        ∧ (r.effectType = 7 → contribution c r a smp = wave c r * (c.typeGain .sawtoothUp).toNat)
        ∧ (r.effectType = 8 →
          contribution c r a smp = cond r a smp.springPos smp.springMax * (c.typeGain .spring).toNat)
        ∧ (r.effectType = 9 →
          contribution c r a smp = cond r a smp.damperVel smp.damperMax * (c.typeGain .damper).toNat)
        ∧ (r.effectType = 10 →
          contribution c r a smp = inertiaForce c.inertia r a smp * (c.typeGain .inertia).toNat)
        ∧ (r.effectType = 11 →
          contribution c r a smp = cond r a smp.frictionPos smp.frictionMax * (c.typeGain .friction).toNat)
        ∧ (r.effectType = 0 ∨ 12 ≤ r.effectType.toNat → contribution c r a smp = 0)

/-- R143: while paused a tick writes no state and returns two zero forces. -/
def Obligations.PausedTickIsSilent : Prop :=
  ∀ (now : Stamp) (samples0 samples1 : SampleRecord) (s : State), s.paused = true →
    exec (.tick now samples0 samples1) s = .next { s with response := some (.forces 0 0) }

/-- R151 (P4): every tick returns two forces in −255..255; read as signed numbers they are the output stage's results for
the two axis sums (R64, R150). -/
def Obligations.TickForcesAreBounded : Prop :=
  ∀ (now : Stamp) (samples0 samples1 : SampleRecord) (s : State), ∃ t force0 force1,
    exec (.tick now samples0 samples1) s = .next t ∧ t.response = some (.forces force0 force1)
      ∧ -255 ≤ force0.toInt ∧ force0.toInt ≤ 255 ∧ -255 ≤ force1.toInt ∧ force1.toInt ≤ 255
      ∧ force0.toInt = outputForce Config.implementation (axisSum Config.implementation .axis0 samples0 s)
      ∧ force1.toInt = outputForce Config.implementation (axisSum Config.implementation .axis1 samples1 s)

/-- R147: a tick is additive across independent slots: where the visited slots of `s` are those of `s₁` and those of
`s₂`, its forces are one output stage applied to the sum of the two states' axis sums. -/
def Obligations.TickIsAdditive : Prop :=
  ∀ (now : Stamp) (samples0 samples1 : SampleRecord) (s s₁ s₂ : State),
    s.paused = false → s₁.paused = false → s₂.paused = false →
    (∀ k, 1 ≤ k → k ≤ 14 → (s.slot k = s₁.slot k ∧ (s₂.slot k).visited = false)
      ∨ (s.slot k = s₂.slot k ∧ (s₁.slot k).visited = false)) →
    ∃ t, exec (.tick now samples0 samples1) s = .next t ∧ t.response = some (.forces
      (forceWord (outputForce Config.implementation (axisSum Config.implementation .axis0 samples0 s₁
        + axisSum Config.implementation .axis0 samples0 s₂)))
      (forceWord (outputForce Config.implementation (axisSum Config.implementation .axis1 samples1 s₁
        + axisSum Config.implementation .axis1 samples1 s₂))))

/-- R151 (P7): when every visited slot has a waveform type the two forces are equal, whatever the samples. -/
def Obligations.WaveformsPushBothAxesAlike : Prop :=
  ∀ (now : Stamp) (samples0 samples1 : SampleRecord) (s : State),
    (∀ k, 1 ≤ k → k ≤ 14 → (s.slot k).visited = true →
      1 ≤ (s.slot k).effectType.toNat ∧ (s.slot k).effectType.toNat ≤ 7) →
    ∃ t force, exec (.tick now samples0 samples1) s = .next t ∧ t.response = some (.forces force force)

/-- R151 (P3): of three ticks with the same clock and samples the last two give the same forces and leave the same
state. -/
def Obligations.RepeatedTicksRepeat : Prop :=
  ∀ (now : Stamp) (samples0 samples1 : SampleRecord) (s : State), ∃ t u,
    exec (.tick now samples0 samples1) s = .next t ∧ exec (.tick now samples0 samples1) t = .next u
      ∧ exec (.tick now samples0 samples1) u = .next u

/-! ## The engines and the output stage, for every implementation -/

/-- R132 (P2): at full gain, outside both envelope windows and with a magnitude that is not 0, a waveform's value is its
generator's. -/
def Obligations.FullGainIsTransparent : Prop :=
  ∀ (c : Config) (r : Slot) (raw : Int), r.gain = 255 → r.attackTime = 0 → r.magnitude ≠ 0 →
    r.elapsedTime.toNat + r.fadeTime.toNat ≤ r.duration.toNat → rawWave c r = some raw → wave c r = raw

/-- R132 (P3), R141 (P2): a gain of 0 silences every effect type. -/
def Obligations.ZeroGainIsSilent : Prop :=
  ∀ (c : Config) (r : Slot) (a : Axis) (smp : SampleRecord), r.gain = 0 → contribution c r a smp = 0

/-- R119, R160: each zero divisor makes the contribution 0: the magnitude for every waveform, the duration for Ramp, the
period for Square, Triangle and the sawtooth waves, the fade time within the fade window, the sample maximum for the four
condition types. Sine keeps its own guard and is not Degenerate: its raw value is `2 × offset` plus the integer `v` nearest
to `SIN(angle) × magnitude`, ties away from zero, where the angle is 0 with a period of 0, whatever the phase, and R128's
sum otherwise. -/
def Obligations.DegenerateParametersContributeZero : Prop :=
  ∀ (c : Config) (r : Slot) (a : Axis) (smp : SampleRecord),
    (r.magnitude = 0 → wave c r = 0) ∧ (r.effectType = 2 → r.duration = 0 → wave c r = 0)
      ∧ (r.effectType = 3 ∨ r.effectType = 5 ∨ r.effectType = 6 ∨ r.effectType = 7 → r.period = 0 → wave c r = 0)
      ∧ (r.fadeTime = 0 → r.duration.toNat < r.elapsedTime.toNat → wave c r = 0)
      ∧ (1 ≤ r.effectType.toNat ∧ r.effectType.toNat ≤ 7 → wave c r = 0 → contribution c r a smp = 0)
      ∧ (r.effectType = 8 → smp.springMax = 0 → contribution c r a smp = 0)
      ∧ (r.effectType = 9 → smp.damperMax = 0 → contribution c r a smp = 0)
      ∧ (r.effectType = 10 → smp.inertiaMax = 0 → contribution c r a smp = 0)
      ∧ (r.effectType = 11 → smp.frictionMax = 0 → contribution c r a smp = 0)
      ∧ ∀ angle q : Rat, r.effectType = 4 →
        angle = (if r.period = 0 then 0
          else (r.elapsedTime.toNat : Rat) / (r.period.toNat : Rat) * 2 * c.pi + (r.phase.toNat : Rat) / 36000) →
        q = c.sin angle * (r.magnitude.toInt : Rat) →
        ∃ v : Int, rawWave c r = some (2 * r.offset.toInt + v)
          ∧ |(v : Rat) - q| ≤ 1 / 2 ∧ (|(v : Rat) - q| = 1 / 2 → |q| < |(v : Rat)|)

/-- R120 to R123: every waveform's value is its raw value rescaled by its shaped magnitude. The three levels are scaled by
gain/255, the attack interpolation holds before `attackTime`, and within the fade window the fade interpolation replaces
it, or the value is 0 where the fade time is 0. R125: a Constant's raw value is its magnitude, so its value is its shaped
magnitude. -/
def Obligations.ConstantFollowsTheEnvelope : Prop :=
  (∀ (c : Config) (r : Slot) (raw m a f e d shaped : Int), rawWave c r = some raw → r.magnitude ≠ 0 →
      m = Int.tdiv (r.magnitude.toInt * r.gain.toNat) 255 → a = Int.tdiv (r.attackLevel.toNat * r.gain.toNat) 255 →
      f = Int.tdiv (r.fadeLevel.toNat * r.gain.toNat) 255 → e = r.elapsedTime.toNat → d = r.duration.toNat →
      shaped = (if d - r.fadeTime.toNat < e then f + Int.tdiv ((m - f) * (d - e)) r.fadeTime.toNat
        else if e < r.attackTime.toNat then a + Int.tdiv ((m - a) * e) r.attackTime.toNat
        else m) →
      wave c r = if d - r.fadeTime.toNat < e ∧ r.fadeTime = 0 then 0
        else Int.tdiv (shaped * raw) r.magnitude.toInt)
    ∧ (∀ (c : Config) (r : Slot), r.effectType = 1 → rawWave c r = some r.magnitude.toInt)
    ∧ ∀ (c : Config) (r : Slot) (m a f e d : Int), r.effectType = 1 → r.magnitude ≠ 0 →
      m = Int.tdiv (r.magnitude.toInt * r.gain.toNat) 255 → a = Int.tdiv (r.attackLevel.toNat * r.gain.toNat) 255 →
      f = Int.tdiv (r.fadeLevel.toNat * r.gain.toNat) 255 → e = r.elapsedTime.toNat → d = r.duration.toNat →
      wave c r =
        if d - r.fadeTime.toNat < e then
          if r.fadeTime = 0 then 0 else f + Int.tdiv ((m - f) * (d - e)) r.fadeTime.toNat
        else if e < r.attackTime.toNat then a + Int.tdiv ((m - a) * e) r.attackTime.toNat
        else m

/-- R127, R124: a Square is at `2 × offset + magnitude` while its position in the period is at most `tdiv(period, 2)`, and
at `2 × offset − magnitude` after it. With a phase of 0 and within the first period the position is the elapsed time, so
the first `tdiv(period, 2) + 1` time units are high. -/
def Obligations.SquareIsHighFirst : Prop :=
  ∀ (c : Config) (r : Slot), r.effectType = 3 →
    (r.period ≠ 0 → rawWave c r
        = some (if (r.elapsedTime.toNat + r.phase.toNat * r.period.toNat / 255) % r.period.toNat ≤ r.period.toNat / 2
          then 2 * r.offset.toInt + r.magnitude.toInt else 2 * r.offset.toInt - r.magnitude.toInt))
      ∧ (r.phase = 0 → r.elapsedTime.toNat < r.period.toNat → rawWave c r
        = some (if r.elapsedTime.toNat ≤ r.period.toNat / 2 then 2 * r.offset.toInt + r.magnitude.toInt
          else 2 * r.offset.toInt - r.magnitude.toInt))

/-- R129 to R131, R124: with `x` the position in the period, Triangle and the sawtooth waves start from
`2 × offset − magnitude` and go along an integer slope, truncated from `4 × magnitude / period` for Triangle (up to and at
`tdiv(period, 2)`, and down after it) and from `2 × magnitude / period` for the sawtooth waves (over `period − x` for
Down, over `x` for Up). R184: where the period exceeds the slope's numerator they are flat. -/
def Obligations.FlatWhereTheSlopeTruncates : Prop :=
  ∀ (c : Config) (r : Slot),
    (∀ (m low p x : Int), r.period ≠ 0 → m = r.magnitude.toInt → low = 2 * r.offset.toInt - m → p = r.period.toNat →
      x = (r.elapsedTime.toNat + Int.fdiv (r.phase.toNat * p) 255) % p →
      (r.effectType = 5 → rawWave c r
          = some (if x ≤ Int.fdiv p 2 then low + Int.tdiv (4 * m) p * x else low + Int.tdiv (4 * m) p * (p - x)))
        ∧ (r.effectType = 6 → rawWave c r = some (low + Int.tdiv (2 * m) p * (p - x)))
        ∧ (r.effectType = 7 → rawWave c r = some (low + Int.tdiv (2 * m) p * x)))
      ∧ ((r.effectType = 5 ∧ 4 * r.magnitude.toInt.natAbs < r.period.toNat)
          ∨ ((r.effectType = 6 ∨ r.effectType = 7) ∧ 2 * r.magnitude.toInt.natAbs < r.period.toNat) →
        rawWave c r = some (2 * r.offset.toInt - r.magnitude.toInt))

/-- R132 (P5): Square, Triangle and the two sawtooth waves repeat after one period. -/
def Obligations.PeriodicWavesRepeat : Prop :=
  ∀ (c : Config) (r : Slot) (later : Half),
    r.effectType = 3 ∨ r.effectType = 5 ∨ r.effectType = 6 ∨ r.effectType = 7 →
    later.toNat = r.elapsedTime.toNat + r.period.toNat →
    rawWave c { r with elapsedTime := later } = rawWave c r

/-- R126: the Ramp's exact rational sum, truncated once, is one integer division; and it is the raw value of effect
type 2. -/
def Obligations.RampIsOneIntegerDivision : Prop :=
  (∀ r : Slot, r.duration ≠ 0 →
      rawRamp r = some (Int.tdiv (r.startMagnitude.toInt * r.duration.toNat
        + r.elapsedTime.toNat * (r.endMagnitude.toInt - r.startMagnitude.toInt)) r.duration.toNat))
    ∧ ∀ (c : Config) (r : Slot), r.effectType = 2 → r.duration ≠ 0 →
      rawWave c r = some (Int.tdiv (r.startMagnitude.toInt * r.duration.toNat
        + r.elapsedTime.toNat * (r.endMagnitude.toInt - r.startMagnitude.toInt)) r.duration.toNat)

/-- R136: the condition law, written over rationals, is computed exactly by integers alone. -/
def Obligations.ConditionLawOverIntegers : Prop :=
  ∀ (r : Slot) (a : Axis) (x xmax : Sample), xmax.toInt ≠ 0 →
    cond r a x xmax = integerCond r a x.toInt xmax.toInt

/-- R135: the law reads block 0 for both axes until two Set Condition reports were accepted, and block 0 for axis 0 and
block 1 for axis 1 from then on. R141 (P1, P3, P4, P6): a normalised sample within `cpOffset ∓ deadBand`, both ends
included, gives 0; a slot whose blocks are all zero is silent for every sample, and contributes nothing under any of the
four condition types; while both axes read block 0 the law does not depend on the axis; and a sample maximum of 0 gives 0.
R133: of the record, what the four condition types contribute depends on the type, the gain, the count and the two blocks
alone. -/
def Obligations.ConditionLawEdgeCases : Prop :=
  (∀ r : Slot,
      (r.conditionBlocksCount.toNat ≤ 1 → r.conditionBlock .axis0 = r.cond0 ∧ r.conditionBlock .axis1 = r.cond0)
        ∧ (1 < r.conditionBlocksCount.toNat → r.conditionBlock .axis0 = r.cond0 ∧ r.conditionBlock .axis1 = r.cond1))
    ∧ (∀ (r : Slot) (a : Axis) (n : Rat),
      (((r.conditionBlock a).cpOffset.toInt - (r.conditionBlock a).deadBand.toNat : Int) : Rat) ≤ n →
      n ≤ (((r.conditionBlock a).cpOffset.toInt + (r.conditionBlock a).deadBand.toNat : Int) : Rat) →
      condN r a n = 0)
    ∧ (∀ (r : Slot) (a : Axis) (n : Rat), r.cond0 = .zero → r.cond1 = .zero → condN r a n = 0)
    ∧ (∀ (c : Config) (r : Slot) (a : Axis) (smp : SampleRecord), 8 ≤ r.effectType.toNat → r.effectType.toNat ≤ 11 →
      r.cond0 = .zero → r.cond1 = .zero → contribution c r a smp = 0)
    ∧ (∀ (r : Slot) (n : Rat), r.conditionBlocksCount.toNat ≤ 1 → condN r .axis0 n = condN r .axis1 n)
    ∧ (∀ (r : Slot) (a : Axis) (x : Sample), cond r a x 0 = 0)
    ∧ ∀ (c : Config) (r r' : Slot) (a : Axis) (smp : SampleRecord),
      8 ≤ r.effectType.toNat → r.effectType.toNat ≤ 11 → r'.effectType = r.effectType → r'.gain = r.gain →
      r'.conditionBlocksCount = r.conditionBlocksCount → r'.cond0 = r.cond0 → r'.cond1 = r.cond1 →
      contribution c r' a smp = contribution c r a smp

/-- R139's default rule (from general knowledge: a default of a parameter, notes/assumptions/6.md), at every sample; and
the rule of every implementation keeps what R139 says every rule must keep. -/
def Obligations.DefaultInertiaRule : Prop :=
  (∀ (r : Slot) (a : Axis) (smp : SampleRecord),
      inertiaForce defaultInertia r a smp
        = if smp.inertiaMax.toInt = 0 then 0
          else if smp.inertiaAcc.toInt < 0 ∧ smp.frictionPos.toInt < 0
            then condN r a |(smp.inertiaAcc.toInt : Rat) / (smp.inertiaMax.toInt : Rat)|
          else if smp.inertiaAcc.toInt < 0 ∧ 0 < smp.frictionPos.toInt
            then - condN r a |(smp.inertiaAcc.toInt : Rat) / (smp.inertiaMax.toInt : Rat)|
          else 0)
    ∧ ∀ rule : InertiaRule, KeepsConditionLaw (inertiaForce rule)

/-- R149, R150: the output stage. The total gain multiplies first and then divides once by 10000, toward zero. For
`g ≥ −W` the map is the floor of `g × 255 / W` clamped at 255, and for `g < −W` it is −255; it never falls as `g` grows, and
so no force falls as its axis sum grows. -/
def Obligations.RescaleIsAClampedFloor : Prop :=
  (∀ (c : Config) (acc g : Int), g = Int.tdiv (acc * c.totalGain.toNat) 10000 →
      outputForce c acc = if g < -c.forceWide then -255 else min 255 (Int.fdiv (g * 255) c.forceWide))
    ∧ (∀ (c : Config) (g : Int),
      rescale c g = if g < -c.forceWide then -255 else min 255 (Int.fdiv (g * 255) c.forceWide))
    ∧ (∀ (c : Config) (g h : Int), g ≤ h → rescale c g ≤ rescale c h)
    ∧ ∀ (c : Config) (acc acc' : Int), acc ≤ acc' → outputForce c acc ≤ outputForce c acc'

/-! ## Invariants and whole-machine rules -/

/-- The state after reset satisfies every invariant (R43, R169). -/
def Obligations.ResetSatisfiesTheInvariants : Prop :=
  Inv State.reset ∧ CursorSound State.reset ∧ NoneStranded State.reset

/-- R19, R20, R30, R34: every step from every state that satisfies the invariant, whatever is pending, keeps the cursor
in 1..15, the sentinel record all zero, bits 7..2 of every state byte 0, and the block load record legal. -/
def Obligations.StepKeepsTheInvariant : Prop :=
  ∀ s t : State, Inv s → step s = .next t → Inv t

/-- R42: a step from a state where no slot below the cursor is free keeps it so, as long as no slot below the cursor is
playing without being allocated. Only the commands that stop slots need that premise: a step that runs any other command,
and one that runs none, keeps it always, and EFFECT_STOP does unless the slot it stops is itself such a slot below the
cursor. -/
def Obligations.StepKeepsTheCursorSound : Prop :=
  (∀ s t : State, Inv s → CursorSound s → NoneStranded s → step s = .next t → CursorSound t)
    ∧ (∀ s t : State, Inv s → CursorSound s →
      (∀ (r : Request) (rest : List Request) (i : Instr), s.resetInput = .released →
        acceptNext s.pending = some (r, rest) → decode r = .ok i → stopsSlots i = false) →
      step s = .next t → CursorSound t)
    ∧ (∀ (i : Instr) (s t : State), Inv s → CursorSound s → stopsSlots i = false → exec i s = .next t → CursorSound t)
    ∧ ∀ (index loopCount : Byte) (s t : State), Inv s → CursorSound s →
      ¬ (1 ≤ index.toNat ∧ index.toNat < s.cursor.toNat ∧ (s.slot index.toNat).state = 0b10) →
      exec (.effectStop index loopCount) s = .next t → CursorSound t

/-- R42: the exact case that breaks the cursor invariant: stopping a slot whose state is `0b10` below the cursor frees
it there. -/
def Obligations.StoppingAStrandedSlotBreaksTheCursor : Prop :=
  ∀ (s : State) (index loopCount : Byte), 1 ≤ index.toNat → index.toNat ≤ 14 → index.toNat < s.cursor.toNat →
    (s.slot index.toNat).state = 0b10 →
    ∃ t, exec (.effectStop index loopCount) s = .next t ∧ (t.slot index.toNat).state = 0 ∧ ¬ CursorSound t

/-- R32: no command but DC_PAUSE and DC_CONTINUE writes the pause flag. -/
def Obligations.OnlyPauseCommandsWriteThePauseFlag : Prop :=
  ∀ (i : Instr) (s : State), i ≠ .dcPause → i ≠ .dcContinue → ∃ t, exec i s = .next t ∧ t.paused = s.paused

/-- R33, R151 (P5): nothing reads the device gain: two states that differ in it alone step to states that differ in it
at most, with the same response. -/
def Obligations.DeviceGainInfluencesNothing : Prop :=
  ∀ (s : State) (gain : Byte),
    mapNext (fun t => t.setDeviceGain 0) (step (s.setDeviceGain gain)) = mapNext (fun t => t.setDeviceGain 0) (step s)

/-- R23: nothing reads `enableAxis`, `directionX` or `directionY` of any record: erased or not, they change no response
and no other piece of state. -/
def Obligations.DirectionFieldsInfluenceNothing : Prop :=
  ∀ s : State, mapNext State.eraseDirections (step s.eraseDirections) = mapNext State.eraseDirections (step s)
end

