-- ==== Sys2Proof/Laws/Engines.lean ====
section
/-! SUPPORT. The conversions from rationals that the engines use (spec/00_scope.md R10, R11), said once; and what the
condition law does not read (spec/43_condition_engine.md R133). -/

namespace Sys2Proof.Machine

/-- Truncating an exact quotient of integers is their truncating division. -/
theorem trunc_div (a : Int) {b : Int} (hb : 0 < b) : trunc ((a : Rat) / (b : Rat)) = Int.tdiv a b := by
  set q := (a : Rat) / (b : Rat) with hq
  have hd : (0 : Int) < q.den := by exact_mod_cast q.den_pos
  have hcross : q.num * b = a * q.den := by
    have hdq : (q.den : Rat) ≠ 0 := by exact_mod_cast q.den_nz
    have hbq : (b : Rat) ≠ 0 := by exact_mod_cast hb.ne'
    have h : (q.num : Rat) / q.den = (a : Rat) / (b : Rat) := by rw [Rat.num_div_den]
    rw [div_eq_div_iff hdq hbq] at h
    exact_mod_cast h
  have hnum : Int.tdiv (q.num * b) ((q.den : Int) * b) = Int.tdiv q.num q.den :=
    Int.mul_tdiv_mul_of_pos_left _ _ hb
  unfold trunc
  rw [← hnum, hcross, mul_comm (q.den : Int) b]
  exact Int.mul_tdiv_mul_of_pos_left _ _ hd

/-- `round` is within a half of its operand. -/
theorem roundHalfAway_near (q : Rat) : |(roundHalfAway q : Rat) - q| ≤ 1 / 2 := by
  unfold roundHalfAway
  split
  · have h1 := Int.floor_le (q + 1 / 2)
    have h2 := Int.lt_floor_add_one (q + 1 / 2)
    change |((⌊q + 1 / 2⌋ : Int) : Rat) - q| ≤ 1 / 2
    rw [abs_le]; constructor <;> linarith
  · have h1 := Int.floor_le (-q + 1 / 2)
    have h2 := Int.lt_floor_add_one (-q + 1 / 2)
    change |((-⌊-q + 1 / 2⌋ : Int) : Rat) - q| ≤ 1 / 2
    push_cast
    rw [abs_le]; constructor <;> linarith

/-- `round` takes a tie away from zero. -/
theorem roundHalfAway_tie (q : Rat) (h : |(roundHalfAway q : Rat) - q| = 1 / 2) : |q| < |(roundHalfAway q : Rat)| := by
  revert h
  unfold roundHalfAway
  split
  · rename_i hq
    have h2 := Int.lt_floor_add_one (q + 1 / 2)
    change |((⌊q + 1 / 2⌋ : Int) : Rat) - q| = 1 / 2 → |q| < |((⌊q + 1 / 2⌋ : Int) : Rat)|
    intro h
    rcases (abs_eq (by norm_num)).mp h with h | h
    · rw [abs_of_nonneg hq]; exact lt_of_lt_of_le (by linarith) (le_abs_self _)
    · linarith
  · rename_i hq
    have h2 := Int.lt_floor_add_one (-q + 1 / 2)
    change |((-⌊-q + 1 / 2⌋ : Int) : Rat) - q| = 1 / 2 → |q| < |((-⌊-q + 1 / 2⌋ : Int) : Rat)|
    push_cast
    intro h
    rcases (abs_eq (by norm_num)).mp h with h | h
    · linarith
    · rw [abs_of_neg (lt_of_not_ge hq), abs_neg]; exact lt_of_lt_of_le (by linarith) (le_abs_self _)

/-- The sign of a number, in each of its three cases. -/
@[simp] theorem signOf_of_neg {v : Int} (h : v < 0) : signOf v = -1 := by simp [signOf, h]
@[simp] theorem signOf_zero : signOf 0 = 0 := rfl
@[simp] theorem signOf_of_pos {v : Int} (h : 0 < v) : signOf v = 1 := by simp [signOf, h, h.not_gt]

/-- The condition law reads none of the three fields that no rule reads. -/
@[simp] theorem condN_eraseDirections (r : Slot) (a : Axis) (n : Rat) : condN r.eraseDirections a n = condN r a n := rfl

/-- The waveform engine reads none of them either. -/
@[simp] theorem wave_eraseDirections (c : Config) (r : Slot) : wave c r.eraseDirections = wave c r := rfl

/-- Nor does a contribution as a whole, whatever the inertia rule. -/
@[simp] theorem contribution_eraseDirections (c : Config) (r : Slot) (a : Axis) (smp : SampleRecord) :
    contribution c r.eraseDirections a smp = contribution c r a smp := rfl

end Sys2Proof.Machine
end

