-- ==== Sys2Proof/Laws/State.lean ====
section
/-! SUPPORT. One lemma per field and update of State, each true by `rfl`: no later proof unfolds a record update. -/

namespace Sys2Proof.Machine

variable (s : State)

@[simp] theorem State.setSlot_slots (i : Nat) (r : Slot) : (s.setSlot i r).slots = s.slots.setIfInBounds i r := rfl
@[simp] theorem State.setSlot_cursor (i : Nat) (r : Slot) : (s.setSlot i r).cursor = s.cursor := rfl
@[simp] theorem State.setSlot_pool (i : Nat) (r : Slot) : (s.setSlot i r).pool = s.pool := rfl
@[simp] theorem State.setSlot_paused (i : Nat) (r : Slot) : (s.setSlot i r).paused = s.paused := rfl
@[simp] theorem State.setSlot_deviceGain (i : Nat) (r : Slot) : (s.setSlot i r).deviceGain = s.deviceGain := rfl
@[simp] theorem State.setSlot_blockLoad (i : Nat) (r : Slot) : (s.setSlot i r).blockLoad = s.blockLoad := rfl
@[simp] theorem State.setSlot_pending (i : Nat) (r : Slot) : (s.setSlot i r).pending = s.pending := rfl
@[simp] theorem State.setSlot_resetInput (i : Nat) (r : Slot) : (s.setSlot i r).resetInput = s.resetInput := rfl
@[simp] theorem State.setSlot_response (i : Nat) (r : Slot) : (s.setSlot i r).response = s.response := rfl

@[simp] theorem State.setCursor_slots (v : Byte) : (s.setCursor v).slots = s.slots := rfl
@[simp] theorem State.setCursor_cursor (v : Byte) : (s.setCursor v).cursor = v := rfl
@[simp] theorem State.setCursor_pool (v : Byte) : (s.setCursor v).pool = s.pool := rfl
@[simp] theorem State.setCursor_paused (v : Byte) : (s.setCursor v).paused = s.paused := rfl
@[simp] theorem State.setCursor_deviceGain (v : Byte) : (s.setCursor v).deviceGain = s.deviceGain := rfl
@[simp] theorem State.setCursor_blockLoad (v : Byte) : (s.setCursor v).blockLoad = s.blockLoad := rfl
@[simp] theorem State.setCursor_pending (v : Byte) : (s.setCursor v).pending = s.pending := rfl
@[simp] theorem State.setCursor_resetInput (v : Byte) : (s.setCursor v).resetInput = s.resetInput := rfl
@[simp] theorem State.setCursor_response (v : Byte) : (s.setCursor v).response = s.response := rfl
@[simp] theorem State.setCursor_slot (v : Byte) (k : Nat) : (s.setCursor v).slot k = s.slot k := rfl

@[simp] theorem State.setPool_slots (v : Half) : (s.setPool v).slots = s.slots := rfl
@[simp] theorem State.setPool_cursor (v : Half) : (s.setPool v).cursor = s.cursor := rfl
@[simp] theorem State.setPool_pool (v : Half) : (s.setPool v).pool = v := rfl
@[simp] theorem State.setPool_paused (v : Half) : (s.setPool v).paused = s.paused := rfl
@[simp] theorem State.setPool_deviceGain (v : Half) : (s.setPool v).deviceGain = s.deviceGain := rfl
@[simp] theorem State.setPool_blockLoad (v : Half) : (s.setPool v).blockLoad = s.blockLoad := rfl
@[simp] theorem State.setPool_pending (v : Half) : (s.setPool v).pending = s.pending := rfl
@[simp] theorem State.setPool_resetInput (v : Half) : (s.setPool v).resetInput = s.resetInput := rfl
@[simp] theorem State.setPool_response (v : Half) : (s.setPool v).response = s.response := rfl
@[simp] theorem State.setPool_slot (v : Half) (k : Nat) : (s.setPool v).slot k = s.slot k := rfl

@[simp] theorem State.setPaused_slots (v : Bool) : (s.setPaused v).slots = s.slots := rfl
@[simp] theorem State.setPaused_cursor (v : Bool) : (s.setPaused v).cursor = s.cursor := rfl
@[simp] theorem State.setPaused_pool (v : Bool) : (s.setPaused v).pool = s.pool := rfl
@[simp] theorem State.setPaused_paused (v : Bool) : (s.setPaused v).paused = v := rfl
@[simp] theorem State.setPaused_deviceGain (v : Bool) : (s.setPaused v).deviceGain = s.deviceGain := rfl
@[simp] theorem State.setPaused_blockLoad (v : Bool) : (s.setPaused v).blockLoad = s.blockLoad := rfl
@[simp] theorem State.setPaused_pending (v : Bool) : (s.setPaused v).pending = s.pending := rfl
@[simp] theorem State.setPaused_resetInput (v : Bool) : (s.setPaused v).resetInput = s.resetInput := rfl
@[simp] theorem State.setPaused_response (v : Bool) : (s.setPaused v).response = s.response := rfl
@[simp] theorem State.setPaused_slot (v : Bool) (k : Nat) : (s.setPaused v).slot k = s.slot k := rfl

@[simp] theorem State.setDeviceGain_slots (v : Byte) : (s.setDeviceGain v).slots = s.slots := rfl
@[simp] theorem State.setDeviceGain_cursor (v : Byte) : (s.setDeviceGain v).cursor = s.cursor := rfl
@[simp] theorem State.setDeviceGain_pool (v : Byte) : (s.setDeviceGain v).pool = s.pool := rfl
@[simp] theorem State.setDeviceGain_paused (v : Byte) : (s.setDeviceGain v).paused = s.paused := rfl
@[simp] theorem State.setDeviceGain_deviceGain (v : Byte) : (s.setDeviceGain v).deviceGain = v := rfl
@[simp] theorem State.setDeviceGain_blockLoad (v : Byte) : (s.setDeviceGain v).blockLoad = s.blockLoad := rfl
@[simp] theorem State.setDeviceGain_pending (v : Byte) : (s.setDeviceGain v).pending = s.pending := rfl
@[simp] theorem State.setDeviceGain_resetInput (v : Byte) : (s.setDeviceGain v).resetInput = s.resetInput := rfl
@[simp] theorem State.setDeviceGain_response (v : Byte) : (s.setDeviceGain v).response = s.response := rfl
@[simp] theorem State.setDeviceGain_slot (v : Byte) (k : Nat) : (s.setDeviceGain v).slot k = s.slot k := rfl

@[simp] theorem State.setBlockLoad_slots (i st : Byte) : (s.setBlockLoad i st).slots = s.slots := rfl
@[simp] theorem State.setBlockLoad_cursor (i st : Byte) : (s.setBlockLoad i st).cursor = s.cursor := rfl
@[simp] theorem State.setBlockLoad_pool (i st : Byte) : (s.setBlockLoad i st).pool = s.pool := rfl
@[simp] theorem State.setBlockLoad_paused (i st : Byte) : (s.setBlockLoad i st).paused = s.paused := rfl
@[simp] theorem State.setBlockLoad_deviceGain (i st : Byte) : (s.setBlockLoad i st).deviceGain = s.deviceGain := rfl
@[simp] theorem State.setBlockLoad_blockLoad (i st : Byte) : (s.setBlockLoad i st).blockLoad = ⟨i, st⟩ := rfl
@[simp] theorem State.setBlockLoad_pending (i st : Byte) : (s.setBlockLoad i st).pending = s.pending := rfl
@[simp] theorem State.setBlockLoad_resetInput (i st : Byte) : (s.setBlockLoad i st).resetInput = s.resetInput := rfl
@[simp] theorem State.setBlockLoad_response (i st : Byte) : (s.setBlockLoad i st).response = s.response := rfl
@[simp] theorem State.setBlockLoad_slot (i st : Byte) (k : Nat) : (s.setBlockLoad i st).slot k = s.slot k := rfl

@[simp] theorem State.setPending_slots (p : List Request) : (s.setPending p).slots = s.slots := rfl
@[simp] theorem State.setPending_cursor (p : List Request) : (s.setPending p).cursor = s.cursor := rfl
@[simp] theorem State.setPending_pool (p : List Request) : (s.setPending p).pool = s.pool := rfl
@[simp] theorem State.setPending_paused (p : List Request) : (s.setPending p).paused = s.paused := rfl
@[simp] theorem State.setPending_deviceGain (p : List Request) : (s.setPending p).deviceGain = s.deviceGain := rfl
@[simp] theorem State.setPending_blockLoad (p : List Request) : (s.setPending p).blockLoad = s.blockLoad := rfl
@[simp] theorem State.setPending_pending (p : List Request) : (s.setPending p).pending = p := rfl
@[simp] theorem State.setPending_resetInput (p : List Request) : (s.setPending p).resetInput = s.resetInput := rfl
@[simp] theorem State.setPending_response (p : List Request) : (s.setPending p).response = s.response := rfl
@[simp] theorem State.setPending_slot (p : List Request) (k : Nat) : (s.setPending p).slot k = s.slot k := rfl

@[simp] theorem State.setResponse_slots (r : Option Response) : (s.setResponse r).slots = s.slots := rfl
@[simp] theorem State.setResponse_cursor (r : Option Response) : (s.setResponse r).cursor = s.cursor := rfl
@[simp] theorem State.setResponse_pool (r : Option Response) : (s.setResponse r).pool = s.pool := rfl
@[simp] theorem State.setResponse_paused (r : Option Response) : (s.setResponse r).paused = s.paused := rfl
@[simp] theorem State.setResponse_deviceGain (r : Option Response) : (s.setResponse r).deviceGain = s.deviceGain := rfl
@[simp] theorem State.setResponse_blockLoad (r : Option Response) : (s.setResponse r).blockLoad = s.blockLoad := rfl
@[simp] theorem State.setResponse_pending (r : Option Response) : (s.setResponse r).pending = s.pending := rfl
@[simp] theorem State.setResponse_resetInput (r : Option Response) : (s.setResponse r).resetInput = s.resetInput := rfl
@[simp] theorem State.setResponse_response (r : Option Response) : (s.setResponse r).response = r := rfl
@[simp] theorem State.setResponse_slot (r : Option Response) (k : Nat) : (s.setResponse r).slot k = s.slot k := rfl

end Sys2Proof.Machine
end

