-- ==== Sys2Proof/Laws/Table.lean ====
section
/-! SUPPORT. Reading the effect table after a write (spec/10_state.md R19, spec/20_memory.md R46): what each shared
operation on records does, said once. -/

namespace Sys2Proof.Machine

variable (s : State)

theorem State.slot_of_lt {i : Nat} (h : i < 15) : s.slot i = s.slots[i] := by simp [State.slot, h]

@[simp] theorem State.slot_of_ge {i : Nat} (h : 15 ≤ i) : s.slot i = Slot.zero := by
  simp [State.slot, Nat.not_lt.mpr h]

/-- Reading back a written record, and every other one. -/
theorem State.setSlot_slot (i k : Nat) (r : Slot) :
    (s.setSlot i r).slot k = if k = i ∧ i < 15 then r else s.slot k := by
  by_cases hk : k < 15
  · by_cases hi : k = i
    · subst hi; simp [State.slot, State.setSlot, hk]
    · simp [State.slot, State.setSlot, hk, hi, Ne.symm hi]
  · simp only [State.slot, hk, dite_false]
    split <;> first | omega | rfl

/-- Two states with the same records have the same table. -/
theorem State.slots_ext {s t : State} (h : ∀ k, t.slot k = s.slot k) : t.slots = s.slots := by
  apply Vector.ext
  intro i hi
  have := h i
  simpa [State.slot, hi] using this

/-- A whole state is determined by its records, registers and ports. -/
theorem State.ext_slots {s t : State} (hslot : ∀ k, t.slot k = s.slot k) (hcursor : t.cursor = s.cursor)
    (hpool : t.pool = s.pool) (hpaused : t.paused = s.paused) (hgain : t.deviceGain = s.deviceGain)
    (hload : t.blockLoad = s.blockLoad) (hpending : t.pending = s.pending)
    (hreset : t.resetInput = s.resetInput) (hresponse : t.response = s.response) : t = s := by
  have := State.slots_ext hslot
  cases s; cases t
  simp_all

/-- The records after reset are all `ZERO`. -/
@[simp] theorem State.resetOf_slot (c : Config) (k : Nat) : (State.resetOf c).slot k = Slot.zero := by
  simp [State.slot, State.resetOf]

@[simp] theorem State.reset_slot (k : Nat) : State.reset.slot k = Slot.zero := State.resetOf_slot _ k

theorem inRange_iff (index : Byte) : inRange index = true ↔ 1 ≤ index.toNat ∧ index.toNat ≤ 14 := by
  exact decide_eq_true_iff

/-- The part of a command that its index byte addresses touches that record alone, and only where the index is in
range. -/
theorem State.updateTarget_slot (index : Byte) (f : Slot → Slot) (k : Nat) :
    (s.updateTarget index f).slot k
      = if (1 ≤ index.toNat ∧ index.toNat ≤ 14) ∧ k = index.toNat then f (s.slot k) else s.slot k := by
  unfold State.updateTarget
  by_cases h : inRange index = true
  · have hr := (inRange_iff index).mp h
    rw [if_pos h, State.setSlot_slot]
    by_cases hk : k = index.toNat
    · subst hk; rw [if_pos ⟨rfl, by omega⟩, if_pos ⟨hr, rfl⟩]
    · rw [if_neg (fun c => hk c.1), if_neg (fun c => hk c.2)]
  · rw [if_neg h, if_neg]
    intro c; exact h ((inRange_iff index).mpr c.1)

/-- The part of a command that its index byte addresses changes no register and no port. -/
theorem State.updateTarget_frame (index : Byte) (f : Slot → Slot) :
    (s.updateTarget index f).cursor = s.cursor ∧ (s.updateTarget index f).pool = s.pool
      ∧ (s.updateTarget index f).paused = s.paused ∧ (s.updateTarget index f).deviceGain = s.deviceGain
      ∧ (s.updateTarget index f).blockLoad = s.blockLoad ∧ (s.updateTarget index f).pending = s.pending
      ∧ (s.updateTarget index f).resetInput = s.resetInput ∧ (s.updateTarget index f).response = s.response := by
  unfold State.updateTarget
  split <;> simp

@[simp] theorem State.updateTarget_cursor (index : Byte) (f : Slot → Slot) :
    (s.updateTarget index f).cursor = s.cursor := (s.updateTarget_frame index f).1
@[simp] theorem State.updateTarget_pool (index : Byte) (f : Slot → Slot) :
    (s.updateTarget index f).pool = s.pool := (s.updateTarget_frame index f).2.1
@[simp] theorem State.updateTarget_paused (index : Byte) (f : Slot → Slot) :
    (s.updateTarget index f).paused = s.paused := (s.updateTarget_frame index f).2.2.1
@[simp] theorem State.updateTarget_deviceGain (index : Byte) (f : Slot → Slot) :
    (s.updateTarget index f).deviceGain = s.deviceGain := (s.updateTarget_frame index f).2.2.2.1
@[simp] theorem State.updateTarget_blockLoad (index : Byte) (f : Slot → Slot) :
    (s.updateTarget index f).blockLoad = s.blockLoad := (s.updateTarget_frame index f).2.2.2.2.1
@[simp] theorem State.updateTarget_pending (index : Byte) (f : Slot → Slot) :
    (s.updateTarget index f).pending = s.pending := (s.updateTarget_frame index f).2.2.2.2.2.1
@[simp] theorem State.updateTarget_resetInput (index : Byte) (f : Slot → Slot) :
    (s.updateTarget index f).resetInput = s.resetInput := (s.updateTarget_frame index f).2.2.2.2.2.2.1
@[simp] theorem State.updateTarget_response (index : Byte) (f : Slot → Slot) :
    (s.updateTarget index f).response = s.response := (s.updateTarget_frame index f).2.2.2.2.2.2.2

end Sys2Proof.Machine
end

