-- ==== Sys2Proof/Laws/Ops.lean ====
section
/-! SUPPORT. What each primitive of the effect table does (spec/40_effect_table.md), said once for all its callers. -/

namespace Sys2Proof.Machine

variable (s : State) (c : Config)

@[simp] theorem Slot.clearState_state (r : Slot) : r.clearState.state = 0 := rfl

/-! ## The scan of R87 -/

/-- The scan stops at the first eligible index at or above its start, or at the bound. -/
theorem scanOccupied_spec (fuel a : Nat) (h : a + fuel = 15) :
    a ≤ scanOccupied s fuel a ∧ scanOccupied s fuel a ≤ 15
      ∧ (∀ j, a ≤ j → j < scanOccupied s fuel a → (s.slot j).eligible = false)
      ∧ (scanOccupied s fuel a ≤ 14 → (s.slot (scanOccupied s fuel a)).eligible = true) := by
  induction fuel generalizing a with
  | zero => simp only [scanOccupied]; refine ⟨le_refl _, by omega, fun j _ _ => by omega, fun _ => by omega⟩
  | succ n ih =>
    rw [scanOccupied]
    by_cases hc : a ≤ Config.slotCount ∧ (s.slot a).eligible = false
    · rw [if_pos hc]
      obtain ⟨h1, h2, h3, h4⟩ := ih (a + 1) (by omega)
      refine ⟨by omega, h2, fun j hj hj' => ?_, h4⟩
      rcases Nat.eq_or_lt_of_le hj with rfl | hlt
      · exact hc.2
      · exact h3 j hlt hj'
    · rw [if_neg hc]
      refine ⟨le_refl _, by omega, fun j _ _ => by omega, fun hle => ?_⟩
      by_contra hne
      exact hc ⟨hle, by simpa using hne⟩

/-- What the allocator's scan answers from an index no higher than N + 1. -/
theorem nextEligible_spec {a : Nat} (h : a ≤ 15) :
    a ≤ nextEligible s a ∧ nextEligible s a ≤ 15
      ∧ (∀ j, a ≤ j → j < nextEligible s a → (s.slot j).eligible = false)
      ∧ (nextEligible s a ≤ 14 → (s.slot (nextEligible s a)).eligible = true) :=
  scanOccupied_spec s _ a (by simp only [Config.slotCount]; omega)

/-- From above N + 1 the scan does not move. -/
theorem nextEligible_of_gt {a : Nat} (h : 15 ≤ a) : nextEligible s a = a := by
  have : Config.slotCount + 1 - a = 0 := by simp only [Config.slotCount]; omega
  simp [nextEligible, this, scanOccupied]

/-! ## allocate, free, start, stop -/

/-- `allocate` either finds no eligible slot from the cursor on, or hands one out: the first eligible index at or above
the cursor. -/
theorem allocate_spec :
    (14 < nextEligible s s.cursor.toNat ∧ allocate c s = none)
      ∨ (nextEligible s s.cursor.toNat ≤ 14
          ∧ ∃ t, allocate c s = some (nextEligible s s.cursor.toNat, t)
            ∧ (∀ k, t.slot k = if k = nextEligible s s.cursor.toNat then freshSlot else s.slot k)
            ∧ t.pool = poolDebit c s.pool
            ∧ nextEligible s s.cursor.toNat < t.cursor.toNat ∧ t.cursor.toNat ≤ 15
            ∧ (∀ j, nextEligible s s.cursor.toNat < j → j < t.cursor.toNat → (s.slot j).eligible = false)
            ∧ t.paused = s.paused ∧ t.deviceGain = s.deviceGain ∧ t.blockLoad = s.blockLoad
            ∧ t.pending = s.pending ∧ t.resetInput = s.resetInput ∧ t.response = s.response) := by
  set id := nextEligible s s.cursor.toNat with hid
  by_cases h : 14 < id
  · left; exact ⟨h, by simp [allocate, ← hid, Config.slotCount, h]⟩
  · right
    have hle : id ≤ 14 := by omega
    refine ⟨hle, _, by simp only [allocate, ← hid, Config.slotCount, h, if_false]; rfl, ?_⟩
    set s₁ := (s.setSlot id freshSlot).setPool (poolDebit c s.pool) with hs₁
    have hslot : ∀ k, s₁.slot k = if k = id then freshSlot else s.slot k := by
      intro k
      rw [hs₁, State.setPool_slot, State.setSlot_slot]
      by_cases hk : k = id
      · rw [if_pos ⟨hk, by omega⟩, if_pos hk]
      · rw [if_neg (fun c => hk c.1), if_neg hk]
    obtain ⟨h1, h2, h3, -⟩ := nextEligible_spec s₁ (a := id + 1) (by omega)
    have hcur : (BitVec.ofNat 8 (nextEligible s₁ (id + 1))).toNat = nextEligible s₁ (id + 1) := by
      simp only [BitVec.toNat_ofNat]; omega
    refine ⟨fun k => by simpa using hslot k, rfl, ?_, ?_, ?_, rfl, rfl, rfl, rfl, rfl, rfl⟩
    · simp only [State.setCursor_cursor, hcur]; omega
    · simp only [State.setCursor_cursor, hcur]; omega
    · intro j hj hj'
      simp only [State.setCursor_cursor, hcur] at hj'
      have := h3 j (by omega) hj'
      rwa [hslot j, if_neg (by omega)] at this

/-- `free` clears one record's state. -/
theorem free_slot (index : Byte) (k : Nat) :
    (free index s).slot k
      = if (1 ≤ index.toNat ∧ index.toNat ≤ 14) ∧ k = index.toNat then (s.slot k).clearState else s.slot k := by
  unfold free
  split
  · rw [← State.updateTarget_slot]
    simp only []
    split <;> simp
  · rename_i h
    rw [if_neg]
    intro c; exact h ((inRange_iff index).mpr c.1)

/-- `free` can only lower the cursor, to the freed index. -/
theorem free_cursor (index : Byte) :
    (free index s).cursor
      = if (1 ≤ index.toNat ∧ index.toNat ≤ 14) ∧ index.toNat < s.cursor.toNat then index else s.cursor := by
  unfold free
  split
  · rename_i h
    have hr := (inRange_iff index).mp h
    by_cases hc : index.toNat < s.cursor.toNat <;> simp [hc, hr]
  · rename_i h
    rw [if_neg]
    intro c; exact h ((inRange_iff index).mpr c.1)

/-- `free` changes no other register: it credits no pool. -/
theorem free_frame (index : Byte) :
    (free index s).pool = s.pool ∧ (free index s).paused = s.paused ∧ (free index s).deviceGain = s.deviceGain
      ∧ (free index s).blockLoad = s.blockLoad ∧ (free index s).pending = s.pending
      ∧ (free index s).resetInput = s.resetInput ∧ (free index s).response = s.response := by
  unfold free
  split
  · simp only []
    split <;> simp
  · simp

/-- `start` sets the playing bit and restarts the time of one record; it changes nothing else. -/
theorem start_slot (index : Byte) (now : Stamp) (k : Nat) :
    (start index now s).slot k
      = if (1 ≤ index.toNat ∧ index.toNat ≤ 14) ∧ k = index.toNat
        then { (s.slot k).setPlaying with elapsedTime := 0, startTime := now } else s.slot k :=
  s.updateTarget_slot index _ k

/-- The records after `stop`'s body. -/
theorem stopBody_slot (i k : Nat) :
    (stopBody c s i).slot k = if k = i ∧ i < 15 then (s.slot i).clearPlaying else s.slot k := by
  simp only [stopBody, State.setPool_slot, State.setSlot_slot]

@[simp] theorem stopBody_pool (i : Nat) : (stopBody c s i).pool = poolCredit c s.pool := rfl
@[simp] theorem stopBody_cursor (i : Nat) : (stopBody c s i).cursor = s.cursor := rfl
@[simp] theorem stopBody_paused (i : Nat) : (stopBody c s i).paused = s.paused := rfl
@[simp] theorem stopBody_deviceGain (i : Nat) : (stopBody c s i).deviceGain = s.deviceGain := rfl
@[simp] theorem stopBody_blockLoad (i : Nat) : (stopBody c s i).blockLoad = s.blockLoad := rfl
@[simp] theorem stopBody_pending (i : Nat) : (stopBody c s i).pending = s.pending := rfl
@[simp] theorem stopBody_resetInput (i : Nat) : (stopBody c s i).resetInput = s.resetInput := rfl
@[simp] theorem stopBody_response (i : Nat) : (stopBody c s i).response = s.response := rfl

/-- `stop` clears the playing bit of one record; an index out of range changes nothing. -/
theorem stop_slot (index : Byte) (k : Nat) :
    (stop c index s).slot k
      = if (1 ≤ index.toNat ∧ index.toNat ≤ 14) ∧ k = index.toNat then (s.slot k).clearPlaying else s.slot k := by
  unfold stop
  split
  · rename_i h
    have hr := (inRange_iff index).mp h
    rw [stopBody_slot]
    by_cases hk : k = index.toNat
    · subst hk; rw [if_pos ⟨rfl, by omega⟩, if_pos ⟨hr, rfl⟩]
    · rw [if_neg (fun c => hk c.1), if_neg (fun c => hk c.2)]
  · rename_i h
    rw [if_neg]
    intro c; exact h ((inRange_iff index).mpr c.1)

/-- `stop` credits the pool once for an index in range, whatever the record's state. -/
theorem stop_pool (index : Byte) :
    (stop c index s).pool
      = if 1 ≤ index.toNat ∧ index.toNat ≤ 14 then poolCredit c s.pool else s.pool := by
  unfold stop
  split
  · rename_i h; rw [if_pos ((inRange_iff index).mp h)]; rfl
  · rename_i h
    rw [if_neg]
    intro c; exact h ((inRange_iff index).mpr c)

/-- `stop` changes no other register. -/
theorem stop_frame (index : Byte) :
    (stop c index s).cursor = s.cursor ∧ (stop c index s).paused = s.paused
      ∧ (stop c index s).deviceGain = s.deviceGain ∧ (stop c index s).blockLoad = s.blockLoad
      ∧ (stop c index s).pending = s.pending ∧ (stop c index s).resetInput = s.resetInput
      ∧ (stop c index s).response = s.response := by
  unfold stop
  split <;> simp

/-! ## The loops over the table -/

/-- A loop `for i in 0..N` whose body rewrites record `i` alone. -/
theorem foldl_setSlot (g : Slot → Slot) (n : Nat) (h : n ≤ 15) :
    (∀ k, ((List.range n).foldl (fun t i => t.setSlot i (g (t.slot i))) s).slot k
        = if k < n then g (s.slot k) else s.slot k)
      ∧ ((List.range n).foldl (fun t i => t.setSlot i (g (t.slot i))) s).pool = s.pool
      ∧ ((List.range n).foldl (fun t i => t.setSlot i (g (t.slot i))) s).cursor = s.cursor
      ∧ ((List.range n).foldl (fun t i => t.setSlot i (g (t.slot i))) s).paused = s.paused
      ∧ ((List.range n).foldl (fun t i => t.setSlot i (g (t.slot i))) s).deviceGain = s.deviceGain
      ∧ ((List.range n).foldl (fun t i => t.setSlot i (g (t.slot i))) s).blockLoad = s.blockLoad
      ∧ ((List.range n).foldl (fun t i => t.setSlot i (g (t.slot i))) s).pending = s.pending
      ∧ ((List.range n).foldl (fun t i => t.setSlot i (g (t.slot i))) s).resetInput = s.resetInput
      ∧ ((List.range n).foldl (fun t i => t.setSlot i (g (t.slot i))) s).response = s.response := by
  induction n with
  | zero => simp
  | succ n ih =>
    obtain ⟨ihs, ihr⟩ := ih (by omega)
    simp only [List.range_succ, List.foldl_append, List.foldl_cons, List.foldl_nil, State.setSlot_pool,
      State.setSlot_cursor, State.setSlot_paused, State.setSlot_deviceGain, State.setSlot_blockLoad,
      State.setSlot_pending, State.setSlot_resetInput, State.setSlot_response]
    refine ⟨fun k => ?_, ihr⟩
    rw [State.setSlot_slot, ihs, ihs]
    by_cases hk : k = n
    · subst hk; simp; omega
    · have : k < n + 1 ↔ k < n := by omega
      simp [hk, this]

/-- `freeAll` clears every state, resets the cursor and the pool, and touches nothing else. -/
theorem freeAll_spec :
    (∀ k, (freeAll c s).slot k = if k < 15 then (s.slot k).clearState else s.slot k)
      ∧ (freeAll c s).cursor = 1 ∧ (freeAll c s).pool = BitVec.ofNat 16 c.poolFull
      ∧ (freeAll c s).paused = s.paused ∧ (freeAll c s).deviceGain = s.deviceGain
      ∧ (freeAll c s).blockLoad = s.blockLoad ∧ (freeAll c s).pending = s.pending
      ∧ (freeAll c s).resetInput = s.resetInput ∧ (freeAll c s).response = s.response := by
  obtain ⟨h1, -, -, h4, h5, h6, h7, h8, h9⟩ := foldl_setSlot s Slot.clearState 15 (le_refl _)
  simp only [freeAll, State.forEachSlot, Config.slotCount, State.setPool_slot, State.setCursor_slot,
    State.setPool_cursor, State.setCursor_cursor, State.setPool_pool, State.setPool_paused, State.setCursor_paused,
    State.setPool_deviceGain, State.setCursor_deviceGain, State.setPool_blockLoad, State.setCursor_blockLoad,
    State.setPool_pending, State.setCursor_pending, State.setPool_resetInput, State.setCursor_resetInput,
    State.setPool_response, State.setCursor_response]
  exact ⟨h1, trivial, trivial, h4, h5, h6, h7, h8, h9⟩

/-- The pool after `n` credits. -/
def creditedPool (c : Config) (pool : Half) (n : Nat) : Half := pool + BitVec.ofNat 16 (n * c.footprint)

theorem foldl_stopBody (n : Nat) (h : n ≤ 15) :
    (∀ k, ((List.range n).foldl (stopBody c) s).slot k = if k < n then (s.slot k).clearPlaying else s.slot k)
      ∧ ((List.range n).foldl (stopBody c) s).pool = creditedPool c s.pool n
      ∧ ((List.range n).foldl (stopBody c) s).cursor = s.cursor
      ∧ ((List.range n).foldl (stopBody c) s).paused = s.paused
      ∧ ((List.range n).foldl (stopBody c) s).deviceGain = s.deviceGain
      ∧ ((List.range n).foldl (stopBody c) s).blockLoad = s.blockLoad
      ∧ ((List.range n).foldl (stopBody c) s).pending = s.pending
      ∧ ((List.range n).foldl (stopBody c) s).resetInput = s.resetInput
      ∧ ((List.range n).foldl (stopBody c) s).response = s.response := by
  induction n with
  | zero => simp [creditedPool]
  | succ n ih =>
    obtain ⟨ihs, ihp, ihr⟩ := ih (by omega)
    simp only [List.range_succ, List.foldl_append, List.foldl_cons, List.foldl_nil, stopBody_pool, stopBody_cursor,
      stopBody_paused, stopBody_deviceGain, stopBody_blockLoad, stopBody_pending, stopBody_resetInput,
      stopBody_response]
    refine ⟨fun k => ?_, ?_, ihr⟩
    · rw [stopBody_slot, ihs, ihs]
      by_cases hk : k = n
      · subst hk; simp; omega
      · have : k < n + 1 ↔ k < n := by omega
        simp [hk, this]
    · rw [ihp, poolCredit, creditedPool, creditedPool, BitVec.add_assoc, ← BitVec.ofNat_add]
      congr 2
      ring

/-- `stopAll` clears every playing bit, credits the pool N + 1 times, and touches nothing else. -/
theorem stopAll_spec :
    (∀ k, (stopAll c s).slot k = if k < 15 then (s.slot k).clearPlaying else s.slot k)
      ∧ (stopAll c s).pool = creditedPool c s.pool 15 ∧ (stopAll c s).cursor = s.cursor
      ∧ (stopAll c s).paused = s.paused ∧ (stopAll c s).deviceGain = s.deviceGain
      ∧ (stopAll c s).blockLoad = s.blockLoad ∧ (stopAll c s).pending = s.pending
      ∧ (stopAll c s).resetInput = s.resetInput ∧ (stopAll c s).response = s.response :=
  foldl_stopBody s c 15 (le_refl _)

end Sys2Proof.Machine
end

