-- ==== Sys2Proof/Laws/PerInstr.lean ====
section
/-! SUPPORT. The per-instruction family `DecodeOfEncode`: decoding the encoding of a well-formed command gives it
back (spec/30_encoding.md R66 to R77, R80), one lemma per constructor. -/

namespace Sys2Proof

/-- A 16-bit field assembled from its own two bytes is itself (R49, R66). -/
@[simp] theorem le16_lowByte_highByte (v : Half) : le16 (lowByte v) (highByte v) = v := by
  unfold le16 lowByte highByte
  ext i hi
  rw [BitVec.getElem_append]
  split
  · simp [BitVec.getLsbD_eq_getElem, hi]
  · rw [BitVec.getElem_extractLsb', show 8 + (i - 8) = i by omega, BitVec.getLsbD_eq_getElem]

/-- What a report that no row but the last admits looks like (R80, R117): the tags it does not have, and the selectors
it does not have with the tags 10 and 12. -/
theorem selectsNoRow_spec {tag byte1 byte2 : Byte} (h : selectsNoRow tag byte1 byte2 = true) :
    tag ≠ 1#8 ∧ tag ≠ 2#8 ∧ tag ≠ 3#8 ∧ tag ≠ 4#8 ∧ tag ≠ 5#8 ∧ tag ≠ 6#8 ∧ tag ≠ 7#8 ∧ tag ≠ 8#8 ∧ tag ≠ 13#8
      ∧ tag ≠ 14#8 ∧ tag ≠ 11#8
      ∧ (tag = 10#8 → byte2 ≠ 1#8 ∧ byte2 ≠ 2#8 ∧ byte2 ≠ 3#8)
      ∧ (tag = 12#8 → byte1 ≠ 1#8 ∧ byte1 ≠ 2#8 ∧ byte1 ≠ 3#8 ∧ byte1 ≠ 4#8 ∧ byte1 ≠ 5#8
          ∧ byte1 ≠ 6#8) := by
  refine ⟨?_, ?_, ?_, ?_, ?_, ?_, ?_, ?_, ?_, ?_, ?_, ?_, ?_⟩
  all_goals first
    | (rintro rfl; simp [selectsNoRow] at h; done)
    | (rintro rfl; refine ⟨?_, ?_, ?_⟩ <;> (rintro rfl; simp [selectsNoRow] at h))
    | (rintro rfl; refine ⟨?_, ?_, ?_, ?_, ?_, ?_⟩ <;> (rintro rfl; simp [selectsNoRow] at h))

namespace Laws.DecodeOfEncode

/-- Decoding the encoding of a well-formed command gives it back. -/
def Statement (i : Instr) : Prop := i.wellFormed = true → decode (encode i) = .ok i

theorem setEffect (index effectType : Byte) (duration : Half) (gain enableAxis directionX directionY : Byte) :
    Statement (.setEffect index effectType duration gain enableAxis directionX directionY) := fun _ => by
  simp [decode, encode, reportRequest, decodeReport]

theorem setEnvelope (index : Byte) (attackLevel fadeLevel attackTime fadeTime : Half) :
    Statement (.setEnvelope index attackLevel fadeLevel attackTime fadeTime) := fun _ => by
  simp [decode, encode, reportRequest, decodeReport]

theorem setCondition (index blockOffset : Byte) (cpOffset positiveCoefficient negativeCoefficient : Half)
    (positiveSaturation negativeSaturation deadBand : Half) :
    Statement (.setCondition index blockOffset cpOffset positiveCoefficient negativeCoefficient positiveSaturation
      negativeSaturation deadBand) := fun _ => by
  simp [decode, encode, reportRequest, decodeReport]

theorem setPeriodic (index : Byte) (magnitude offset phase period : Half) :
    Statement (.setPeriodic index magnitude offset phase period) := fun _ => by
  simp [decode, encode, reportRequest, decodeReport]

theorem setConstant (index : Byte) (magnitude : Half) :
    Statement (.setConstant index magnitude) := fun _ => by
  simp [decode, encode, reportRequest, decodeReport]

theorem setRamp (index : Byte) (startMagnitude endMagnitude : Half) :
    Statement (.setRamp index startMagnitude endMagnitude) := fun _ => by
  simp [decode, encode, reportRequest, decodeReport]

theorem custom7 :
    Statement .custom7 := fun _ => by
  simp [decode, encode, reportRequest, decodeReport, tagBytes]

theorem custom8 :
    Statement .custom8 := fun _ => by
  simp [decode, encode, reportRequest, decodeReport, tagBytes]

theorem custom14 :
    Statement .custom14 := fun _ => by
  simp [decode, encode, reportRequest, decodeReport, tagBytes]

theorem effectStart (index loopCount : Byte) (now : Stamp) :
    Statement (.effectStart index loopCount now) := fun _ => by
  simp [decode, encode, reportRequest, decodeReport, effectOpBytes]

theorem effectStartSolo (index loopCount : Byte) (now : Stamp) :
    Statement (.effectStartSolo index loopCount now) := fun _ => by
  simp [decode, encode, reportRequest, decodeReport, effectOpBytes]

theorem effectStop (index loopCount : Byte) :
    Statement (.effectStop index loopCount) := fun _ => by
  simp [decode, encode, reportRequest, decodeReport, effectOpBytes]

theorem blockFreeAll :
    Statement .blockFreeAll := fun _ => by
  simp [decode, encode, reportRequest, decodeReport, blockFreeBytes]

theorem blockFree (index : Byte) :
    Statement (.blockFree index) := fun h => by
  have h' : index ≠ freeAllIndex := by simpa [Instr.wellFormed] using h
  simp [decode, encode, reportRequest, decodeReport, blockFreeBytes, h']

theorem dcEnableActuators :
    Statement .dcEnableActuators := fun _ => by
  simp [decode, encode, reportRequest, decodeReport, deviceControlBytes]

theorem dcDisableActuators :
    Statement .dcDisableActuators := fun _ => by
  simp [decode, encode, reportRequest, decodeReport, deviceControlBytes]

theorem dcStopAll :
    Statement .dcStopAll := fun _ => by
  simp [decode, encode, reportRequest, decodeReport, deviceControlBytes]

theorem dcFreeAll :
    Statement .dcFreeAll := fun _ => by
  simp [decode, encode, reportRequest, decodeReport, deviceControlBytes]

theorem dcPause :
    Statement .dcPause := fun _ => by
  simp [decode, encode, reportRequest, decodeReport, deviceControlBytes]

theorem dcContinue :
    Statement .dcContinue := fun _ => by
  simp [decode, encode, reportRequest, decodeReport, deviceControlBytes]

theorem deviceGain (gain : Byte) :
    Statement (.deviceGain gain) := fun _ => by
  simp [decode, encode, reportRequest, decodeReport]

theorem ignored (tag byte1 byte2 : Byte) :
    Statement (.ignored tag byte1 byte2) := fun h => by
  simp only [Instr.wellFormed] at h
  obtain ⟨h1, h2, h3, h4, h5, h6, h7, h8, h13, h14, h11, h10, h12⟩ := selectsNoRow_spec h
  simp only [decode, encode, reportRequest, decodeReport]
  simp [h1, h2, h3, h4, h5, h6, h7, h8, h13, h14, h11]
  by_cases t10 : tag = 10#8
  · simp [t10, h10 t10]
  · by_cases t12 : tag = 12#8
    · simp [t12, h12 t12]
    · simp [t10, t12]

theorem create :
    Statement .create := fun _ => by
  simp [decode, encode, bareRequest]

theorem getBlockLoad :
    Statement .getBlockLoad := fun _ => by
  simp [decode, encode, bareRequest]

theorem getPool :
    Statement .getPool := fun _ => by
  simp [decode, encode, bareRequest]

theorem tick (now : Stamp) (samples0 samples1 : SampleRecord) :
    Statement (.tick now samples0 samples1) := fun _ => by
  simp [decode, encode]

end Laws.DecodeOfEncode
end Sys2Proof
end

