-- ==== Sys2Proof/Laws/Port.lean ====
section
/-! SUPPORT. Which request the core accepts (spec/20_memory.md R54, spec/60_exceptions.md R163). -/

namespace Sys2Proof.Machine

/-- The first pending host request, behind any number of ticks, is taken. -/
theorem takeHostRequest_append (ticks : List Request) (h : ∀ q ∈ ticks, isTick q = true) (r : Request)
    (rest : List Request) (hr : isTick r = false) :
    takeHostRequest (ticks ++ r :: rest) = some (r, ticks ++ rest) := by
  induction ticks with
  | nil => simp [takeHostRequest, hr]
  | cons q ticks ih =>
    have hq : isTick q = true := h q (by simp)
    simp [takeHostRequest, hq, ih (fun p hp => h p (by simp [hp]))]

/-- There is no host request among ticks. -/
theorem takeHostRequest_ticks (ticks : List Request) (h : ∀ q ∈ ticks, isTick q = true) :
    takeHostRequest ticks = none := by
  induction ticks with
  | nil => rfl
  | cons q ticks ih =>
    have hq : isTick q = true := h q (by simp)
    simp [takeHostRequest, hq, ih (fun p hp => h p (by simp [hp]))]

/-- Any list of requests is ticks alone, or ticks before a first host request. -/
theorem ticks_or_host (l : List Request) :
    (∀ q ∈ l, isTick q = true)
      ∨ ∃ ticks r rest, l = ticks ++ r :: rest ∧ (∀ q ∈ ticks, isTick q = true) ∧ isTick r = false := by
  induction l with
  | nil => left; simp
  | cons q l ih =>
    by_cases hq : isTick q = true
    · rcases ih with h | ⟨ticks, r, rest, rfl, ht, hr⟩
      · left; simpa [hq] using h
      · right; exact ⟨q :: ticks, r, rest, by simp, by simpa [hq] using ht, hr⟩
    · right; exact ⟨[], q, l, by simp, by simp, by simpa using hq⟩

/-- What the core accepts: nothing when nothing is pending, the first host request when there is one, else the first
tick. -/
theorem acceptNext_spec (l : List Request) :
    (l = [] ∧ acceptNext l = none)
      ∨ (∃ r rest, l = r :: rest ∧ (∀ q ∈ l, isTick q = true) ∧ acceptNext l = some (r, rest))
      ∨ (∃ ticks r rest, l = ticks ++ r :: rest ∧ (∀ q ∈ ticks, isTick q = true) ∧ isTick r = false
          ∧ acceptNext l = some (r, ticks ++ rest)) := by
  rcases ticks_or_host l with h | ⟨ticks, r, rest, rfl, ht, hr⟩
  · cases l with
    | nil => left; exact ⟨rfl, rfl⟩
    | cons r rest => right; left; exact ⟨r, rest, rfl, h, by simp [acceptNext, takeHostRequest_ticks _ h]⟩
  · right; right
    exact ⟨ticks, r, rest, rfl, ht, hr, by simp [acceptNext, takeHostRequest_append _ ht _ _ hr]⟩

/-- A request placed first is the one accepted. -/
theorem acceptNext_presentFirst (s : State) (r : Request) :
    ∃ rest, acceptNext (s.presentFirst r).pending = some (r, rest) := by
  unfold State.presentFirst
  by_cases hr : isTick r = true
  · refine ⟨s.pending.filter isTick, ?_⟩
    simp only [hr, if_true]
    unfold acceptNext
    rw [takeHostRequest_ticks]
    intro q hq
    simp only [List.mem_cons, List.mem_filter] at hq
    rcases hq with rfl | hq
    · exact hr
    · exact hq.2
  · refine ⟨s.pending, ?_⟩
    simp [hr, acceptNext, takeHostRequest]

end Sys2Proof.Machine
end

