-- ==== Sys2Proof/Laws/Tick.lean ====
section
/-! SUPPORT. What the walk of a tick does (spec/44_force_reducer.md R142 to R148), as a map over the records and a sum
over the slots, said once for every statement about TICK. -/

namespace Sys2Proof.Machine

/-- The two states differ in their tables at most. -/
def SameButSlots (s t : State) : Prop := t = { s with slots := t.slots }

theorem SameButSlots.refl (s : State) : SameButSlots s s := rfl

theorem SameButSlots.trans {s t u : State} (h : SameButSlots s t) (g : SameButSlots t u) : SameButSlots s u := by
  unfold SameButSlots at *
  rw [g, h]

theorem SameButSlots.setSlot (s : State) (i : Nat) (r : Slot) : SameButSlots s (s.setSlot i r) := rfl

theorem SameButSlots.spec {s t : State} (h : SameButSlots s t) :
    t.cursor = s.cursor ∧ t.pool = s.pool ∧ t.paused = s.paused ∧ t.deviceGain = s.deviceGain
      ∧ t.blockLoad = s.blockLoad ∧ t.pending = s.pending ∧ t.resetInput = s.resetInput
      ∧ t.response = s.response := by
  unfold SameButSlots at h
  rw [h]
  simp

variable (c : Config) (now : Stamp) (smp0 smp1 : SampleRecord)

/-- One slot's work: its record is ticked, its two shares are added, nothing else changes. -/
theorem tickSlot_spec (w : TickWork) (i : Nat) (hi : i < 15) :
    (∀ k, (tickSlot c now smp0 smp1 w i).state.slot k
        = if k = i then (w.state.slot k).ticked now else w.state.slot k)
      ∧ (tickSlot c now smp0 smp1 w i).acc0 = w.acc0 + slotShare c .axis0 smp0 (w.state.slot i)
      ∧ (tickSlot c now smp0 smp1 w i).acc1 = w.acc1 + slotShare c .axis1 smp1 (w.state.slot i)
      ∧ SameButSlots w.state (tickSlot c now smp0 smp1 w i).state := by
  unfold tickSlot Slot.ticked slotShare
  by_cases h : (w.state.slot i).visited = true
  · simp only [h, if_true]
    refine ⟨fun k => ?_, trivial, trivial, SameButSlots.setSlot _ _ _⟩
    rw [State.setSlot_slot]
    by_cases hk : k = i
    · subst hk; simp [hi, h]
    · simp [hk]
  · simp only [h, if_false, Bool.false_eq_true]
    refine ⟨fun k => ?_, by simp, by simp, SameButSlots.refl _⟩
    by_cases hk : k = i
    · subst hk; simp [h]
    · simp [hk]

/-- The walk over any list of distinct slots. -/
theorem foldl_tickSlot (l : List Nat) (hl : ∀ i ∈ l, i < 15) (hn : l.Nodup) (w : TickWork) :
    (∀ k, (l.foldl (tickSlot c now smp0 smp1) w).state.slot k
        = if k ∈ l then (w.state.slot k).ticked now else w.state.slot k)
      ∧ (l.foldl (tickSlot c now smp0 smp1) w).acc0
          = w.acc0 + (l.map fun i => slotShare c .axis0 smp0 (w.state.slot i)).sum
      ∧ (l.foldl (tickSlot c now smp0 smp1) w).acc1
          = w.acc1 + (l.map fun i => slotShare c .axis1 smp1 (w.state.slot i)).sum
      ∧ SameButSlots w.state (l.foldl (tickSlot c now smp0 smp1) w).state := by
  induction l generalizing w with
  | nil => simp [SameButSlots.refl]
  | cons i l ih =>
    obtain ⟨h1, h2, h3, h4⟩ := tickSlot_spec c now smp0 smp1 w i (hl i (by simp))
    have hi : i ∉ l := (List.nodup_cons.mp hn).1
    obtain ⟨g1, g2, g3, g4⟩ := ih (fun j hj => hl j (by simp [hj])) (List.nodup_cons.mp hn).2
      (tickSlot c now smp0 smp1 w i)
    have hmap : ∀ (a : Axis) (smp : SampleRecord),
        (l.map fun j => slotShare c a smp ((tickSlot c now smp0 smp1 w i).state.slot j))
          = l.map fun j => slotShare c a smp (w.state.slot j) := by
      intro a smp
      refine List.map_congr_left fun j hj => ?_
      rw [h1 j, if_neg (fun e : j = i => hi (e ▸ hj))]
    simp only [List.foldl_cons]
    refine ⟨fun k => ?_, ?_, ?_, ?_⟩
    · rw [g1 k, h1 k]
      by_cases hk : k = i
      · subst hk; simp [hi]
      · simp [hk]
    · rw [g2, h2, hmap, List.map_cons, List.sum_cons]; ring
    · rw [g3, h3, hmap, List.map_cons, List.sum_cons]; ring
    · exact h4.trans g4

/-- The walk of a tick, paused or not. -/
theorem tickWalk_spec (s : State) :
    (∀ k, (tickWalk c now smp0 smp1 s).state.slot k
        = if s.paused = false ∧ 1 ≤ k ∧ k ≤ 14 then (s.slot k).ticked now else s.slot k)
      ∧ (tickWalk c now smp0 smp1 s).acc0 = axisSum c .axis0 smp0 s
      ∧ (tickWalk c now smp0 smp1 s).acc1 = axisSum c .axis1 smp1 s
      ∧ SameButSlots s (tickWalk c now smp0 smp1 s).state := by
  unfold tickWalk axisSum
  by_cases hp : s.paused = true
  · simp [hp, SameButSlots.refl]
  · obtain ⟨h1, h2, h3, h4⟩ := foldl_tickSlot c now smp0 smp1 walkedSlots
      (by intro i hi; simp [walkedSlots, Config.slotCount, List.mem_range'_1] at hi; omega)
      (by simp [walkedSlots, List.nodup_range']) ⟨s, 0, 0⟩
    simp only [hp, if_false, Bool.false_eq_true]
    refine ⟨fun k => ?_, ?_, ?_, h4⟩
    · rw [h1 k]
      have hm : k ∈ walkedSlots ↔ (1 ≤ k ∧ k ≤ 14) := by
        simp [walkedSlots, Config.slotCount, List.mem_range'_1]; omega
      simp only [hm, true_and]
    · rw [h2]; simp [walkedSlots, Config.slotCount]
    · rw [h3]; simp [walkedSlots, Config.slotCount]

/-- TICK: the state it leaves and the response it gives. -/
theorem tickWith_spec (s : State) :
    ∃ t, tickWith c now smp0 smp1 s = .next t
      ∧ (∀ k, t.slot k = if s.paused = false ∧ 1 ≤ k ∧ k ≤ 14 then (s.slot k).ticked now else s.slot k)
      ∧ t.response = some (.forces (forceWord (outputForce c (axisSum c .axis0 smp0 s)))
          (forceWord (outputForce c (axisSum c .axis1 smp1 s))))
      ∧ t.cursor = s.cursor ∧ t.pool = s.pool ∧ t.paused = s.paused ∧ t.deviceGain = s.deviceGain
      ∧ t.blockLoad = s.blockLoad ∧ t.pending = s.pending ∧ t.resetInput = s.resetInput := by
  obtain ⟨h1, h2, h3, h4⟩ := tickWalk_spec c now smp0 smp1 s
  refine ⟨_, rfl, fun k => by rw [State.setResponse_slot, h1 k], ?_, ?_⟩
  · rw [State.setResponse_response, h2, h3]
  · simp only [State.setResponse_cursor, State.setResponse_pool, State.setResponse_paused,
      State.setResponse_deviceGain, State.setResponse_blockLoad, State.setResponse_pending,
      State.setResponse_resetInput]
    obtain ⟨g1, g2, g3, g4, g5, g6, g7, -⟩ := h4.spec
    exact ⟨g1, g2, g3, g4, g5, g6, g7⟩

/-- The clamp's result lies between its bounds. -/
theorem clamp_mem (v : Int) {lo hi : Int} (h : lo ≤ hi) : lo ≤ clamp v lo hi ∧ clamp v lo hi ≤ hi := by
  unfold clamp
  split
  · omega
  · split <;> omega

/-- A number that an `s16` holds is carried unchanged. -/
theorem forceWord_toInt {f : Int} (h1 : -255 ≤ f) (h2 : f ≤ 255) : (forceWord f).toInt = f := by
  unfold forceWord
  rw [BitVec.toInt_ofInt]
  exact Int.bmod_eq_of_le (by omega) (by omega)

end Sys2Proof.Machine
end

