-- ==== Sys2Proof/Tests/Slice0.lean ====
section
/-! SUPPORT. Tests on fixed values. Expected results come from spec/95_test_vectors.md and from the worked examples of
the rules named beside each test; report bytes are those the spec prints. Then, for each obligation that has hypotheses, a
witness: a concrete state and operands that meet all of them together. -/

namespace Sys2Proof.Tests

open Sys2Proof Sys2Proof.Machine

/-! ## A small configuration and small states -/

/-- The configuration of 95_test_vectors.md, with a sine unit that answers 1. -/
def cfg : Config where
  footprintLessOne := 63
  typeGain := fun _ => 100
  totalGain := 100
  forceWideLessOne := 9999
  sin := fun _ => 1
  pi := 3
  inertia := defaultInertia
  blockLoadReportId := 0xB1
  poolReportId := 0xB2
  memMgmt := 77

/-- The state after reset with that configuration. -/
def blank : State := State.resetOf cfg

/-- That state with some records in its table. -/
def table (l : List (Nat × Slot)) : State := l.foldl (fun s p => s.setSlot p.1 p.2) blank

/-- A record with this state byte and nothing else. -/
def inState (v : Byte) : Slot := { Slot.zero with state := v }

/-- A playing record with the infinite duration and full gain. -/
def playing (effectType : Byte) : Slot :=
  { Slot.zero with state := 3, effectType := effectType, duration := 0x7FFF, gain := 255 }

/-- The state of an outcome that has one. -/
def nextOf (r : Result) : State :=
  match r with
  | .next t => t
  | .fault _ => blank
  | .refused _ => blank

/-- A report of these bytes. -/
def rep (hex : Nat) : Request := reportRequest (bytesOfHex hex) 7000

/-- Samples with one spring position of 1000 and the other maxima 1000. -/
def spring (x : Int) : SampleRecord :=
  { springPos := BitVec.ofInt 32 x, springMax := 1000, damperVel := 0, damperMax := 1000, inertiaAcc := 0,
    inertiaMax := 1000, frictionPos := 0, frictionMax := 1000 }

/-! ## WellFormed refuses each ill-formed term -/

theorem test_wellFormed_refuses_blockFree_255 : (Instr.blockFree 255).wellFormed = false := by decide
theorem test_wellFormed_admits_blockFree_254 : (Instr.blockFree 254).wellFormed = true := by decide
theorem test_wellFormed_refuses_ignored_tag_1 : (Instr.ignored 1 0 0).wellFormed = false := by decide
theorem test_wellFormed_refuses_ignored_tag_14 : (Instr.ignored 14 0 0).wellFormed = false := by decide
theorem test_wellFormed_refuses_ignored_operation_3 : (Instr.ignored 10 0 3).wellFormed = false := by decide
theorem test_wellFormed_refuses_ignored_control_6 : (Instr.ignored 12 6 0).wellFormed = false := by decide
theorem test_wellFormed_refuses_ignored_tag_11 : (Instr.ignored 11 3 0).wellFormed = false := by decide
theorem test_wellFormed_admits_ignored :
    (Instr.ignored 9 0 0).wellFormed = true ∧ (Instr.ignored 10 0 4).wellFormed = true
      ∧ (Instr.ignored 12 7 0).wellFormed = true ∧ (Instr.ignored 255 0 0).wellFormed = true := by decide

/-! ## Decoding, every constructor from a written-out request -/

/-- The spelling of bytes (R83, R85): `b[0]` leftmost. -/
theorem test_bytesOfHex : bytesOfHex 0x000102030405060708090A0B0C0D0E0F
    = #v[0, 1, 2, 3, 4, 5, 6, 7, 8, 9, 10, 11, 12, 13, 14, 15] := by decide

/-- 95_test_vectors.md D1. -/
theorem test_decode_setEffect :
    decode (rep 0x010208FFFFC8035AB4AAAAAAAAAAAAAA) = .ok (.setEffect 2 8 65535 200 3 90 180) := by decide
/-- 95_test_vectors.md D2. -/
theorem test_decode_setEnvelope :
    decode (rep 0x0201FFFF00800100FFFF000000000000) = .ok (.setEnvelope 1 65535 32768 1 65535) := by decide
/-- 30_encoding.md R69, signed fields. -/
theorem test_decode_setCondition : decode (rep 0x0302010CFE48F4581BFFFF0100140000)
    = .ok (.setCondition 2 1 (BitVec.ofInt 16 (-500)) (BitVec.ofInt 16 (-3000)) 7000 65535 1 20) := by decide
/-- 41_report_dispatcher.md R99. -/
theorem test_decode_setPeriodic :
    decode (rep 0x0401640000000000E803000000000000) = .ok (.setPeriodic 1 100 0 0 1000) := by decide
/-- 41_report_dispatcher.md R100. -/
theorem test_decode_setConstant :
    decode (rep 0x050178EC000000000000000000000000) = .ok (.setConstant 1 (BitVec.ofInt 16 (-5000))) := by decide
/-- 41_report_dispatcher.md R101. -/
theorem test_decode_setRamp :
    decode (rep 0x060118FCE80300000000000000000000) = .ok (.setRamp 1 (BitVec.ofInt 16 (-1000)) 1000) := by decide
theorem test_decode_custom7 : decode (rep 0x07FFFFFFFFFFFFFFFFFFFFFFFFFFFFFF) = .ok .custom7 := by decide
theorem test_decode_custom8 : decode (rep 0x08000000000000000000000000000000) = .ok .custom8 := by decide
theorem test_decode_custom14 : decode (rep 0x0E000000000000000000000000000000) = .ok .custom14 := by decide
/-- 41_report_dispatcher.md R105. -/
theorem test_decode_effectStart :
    decode (rep 0x0A010103000000000000000000000000) = .ok (.effectStart 1 3 7000) := by decide
/-- 41_report_dispatcher.md R106. -/
theorem test_decode_effectStartSolo :
    decode (rep 0x0A020200000000000000000000000000) = .ok (.effectStartSolo 2 0 7000) := by decide
/-- 41_report_dispatcher.md R107. -/
theorem test_decode_effectStop :
    decode (rep 0x0A010300000000000000000000000000) = .ok (.effectStop 1 0) := by decide
theorem test_decode_blockFreeAll : decode (rep 0x0BFF0000000000000000000000000000) = .ok .blockFreeAll := by decide
theorem test_decode_blockFree : decode (rep 0x0B020000000000000000000000000000) = .ok (.blockFree 2) := by decide
theorem test_decode_dcEnableActuators :
    decode (rep 0x0C010000000000000000000000000000) = .ok .dcEnableActuators := by decide
theorem test_decode_dcDisableActuators :
    decode (rep 0x0C020000000000000000000000000000) = .ok .dcDisableActuators := by decide
theorem test_decode_dcStopAll : decode (rep 0x0C030000000000000000000000000000) = .ok .dcStopAll := by decide
theorem test_decode_dcFreeAll : decode (rep 0x0C040000000000000000000000000000) = .ok .dcFreeAll := by decide
theorem test_decode_dcPause : decode (rep 0x0C050000000000000000000000000000) = .ok .dcPause := by decide
theorem test_decode_dcContinue : decode (rep 0x0C060000000000000000000000000000) = .ok .dcContinue := by decide
theorem test_decode_deviceGain : decode (rep 0x0D800000000000000000000000000000) = .ok (.deviceGain 128) := by decide
/-- 41_report_dispatcher.md R117, its three examples. -/
theorem test_decode_ignored :
    decode (rep 0x09010000000000000000000000000000) = .ok (.ignored 9 1 0)
      ∧ decode (rep 0x0A010700000000000000000000000000) = .ok (.ignored 10 1 7)
      ∧ decode (rep 0x0C000000000000000000000000000000) = .ok (.ignored 12 0 0) := by decide
theorem test_decode_create : decode (bareRequest 1) = .ok .create := by decide
theorem test_decode_getBlockLoad : decode (bareRequest 2) = .ok .getBlockLoad := by decide
theorem test_decode_getPool : decode (bareRequest 3) = .ok .getPool := by decide
theorem test_decode_tick :
    decode ⟨4, noReport, 150, spring 500, noSamples⟩ = .ok (.tick 150 (spring 500) noSamples) := by decide
/-- 30_encoding.md R60. -/
theorem test_decode_reserved :
    decode (bareRequest 5) = .error (.reservedKind 5) ∧ decode (bareRequest 6) = .error (.reservedKind 6)
      ∧ decode (bareRequest 7) = .error (.reservedKind 7) := by decide
/-- The table's bit order: the first byte in bits 7..0. `0A 01 01 03` is `0x0301010A`. -/
theorem test_decodeTableWord_report : decodeTableWord 128 0x0301010A = some (.effectStart 1 3 0) := by decide
/-- Byte 16 holds the kind (notes/assumptions/7.md); bits above `nbits` are 0. -/
theorem test_decodeTableWord_kind :
    decodeTableWord 136 (2 ^ 128) = some .create ∧ decodeTableWord 136 (5 * 2 ^ 128) = none
      ∧ decodeTableWord 128 (2 ^ 128) = some (.ignored 0 0 0) := by decide
/-- 30_encoding.md R84: each pseudo-command is its expansion. -/
theorem test_pseudo_commands :
    decode (asmStart 1 3 9) = .ok (.effectStart 1 3 9) ∧ decode (asmStartSolo 2 9) = .ok (.effectStartSolo 2 0 9)
      ∧ decode (asmStop 1) = .ok (.effectStop 1 0) ∧ decode asmFreeAll = .ok .blockFreeAll
      ∧ decode asmStopAll = .ok .dcStopAll ∧ decode asmResetDevice = .ok .dcFreeAll
      ∧ decode asmPause = .ok .dcPause ∧ decode asmContinue = .ok .dcContinue := by decide

/-! ## The parameter reports -/

/-- R96: the whole record, at the highest index. -/
theorem test_setEffect : (nextOf (exec (.setEffect 14 4 2000 255 3 90 180) (table [(14, inState 3)]))).slot 14
    = { inState 3 with effectType := 4, duration := 2000, gain := 255, enableAxis := 3, directionX := 90,
                       directionY := 180 } := by decide
/-- R46, R159: the indices 0, 15 and 255 are out of range. -/
theorem test_setEffect_out_of_range :
    (nextOf (exec (.setEffect 0 4 9 9 9 9 9) blank)).slots = blank.slots
      ∧ (nextOf (exec (.setEffect 15 4 9 9 9 9 9) blank)).slots = blank.slots
      ∧ (nextOf (exec (.setEffect 255 4 9 9 9 9 9) blank)).slots = blank.slots := by decide
theorem test_setEnvelope : (nextOf (exec (.setEnvelope 1 65535 32768 1 65535) blank)).slot 1
    = { Slot.zero with attackLevel := 65535, fadeLevel := 32768, attackTime := 1, fadeTime := 65535 } := by decide
/-- R98's example, then its block 1; the count wraps after 255. -/
theorem test_setCondition :
    ((nextOf (exec (.setCondition 2 0 0 10000 10000 10000 10000 0) blank)).slot 2
        = { Slot.zero with cond0 := ⟨0, 10000, 10000, 10000, 10000, 0⟩, conditionBlocksCount := 1 })
      ∧ (nextOf (exec (.setCondition 2 1 1 2 3 4 5 6)
          (table [(2, { Slot.zero with conditionBlocksCount := 255 })]))).slot 2
        = { Slot.zero with cond1 := ⟨1, 2, 3, 4, 5, 6⟩, conditionBlocksCount := 0 } := by decide
/-- R98: a block offset of 2 or 255 makes the whole report ignored. -/
theorem test_setCondition_ignored :
    (nextOf (exec (.setCondition 2 2 1 2 3 4 5 6) blank)).slots = blank.slots
      ∧ (nextOf (exec (.setCondition 2 255 1 2 3 4 5 6) blank)).slots = blank.slots := by decide
theorem test_setPeriodic : (nextOf (exec (.setPeriodic 1 100 2 3 1000) blank)).slot 1
    = { Slot.zero with magnitude := 100, offset := 2, phase := 3, period := 1000 } := by decide
theorem test_setConstant : (nextOf (exec (.setConstant 1 5) (table [(1, { Slot.zero with offset := 8 })]))).slot 1
    = { Slot.zero with magnitude := 5, offset := 8 } := by decide
theorem test_setRamp : (nextOf (exec (.setRamp 1 5 6) (table [(1, { Slot.zero with magnitude := 8 })]))).slot 1
    = { Slot.zero with magnitude := 8, startMagnitude := 5, endMagnitude := 6 } := by decide

/-! ## Reports without effect -/

theorem test_inert_reports :
    exec .custom7 blank = .next (blank.setResponse (some .empty))
      ∧ exec .custom8 blank = .next (blank.setResponse (some .empty))
      ∧ exec .custom14 blank = .next (blank.setResponse (some .empty))
      ∧ exec .dcEnableActuators blank = .next (blank.setResponse (some .empty))
      ∧ exec .dcDisableActuators blank = .next (blank.setResponse (some .empty))
      ∧ exec (.ignored 9 1 0) blank = .next (blank.setResponse (some .empty)) := ⟨rfl, rfl, rfl, rfl, rfl, rfl⟩

/-! ## Start, stop, free -/

/-- R105's example and its corner case (c). -/
theorem test_effectStart :
    ((nextOf (exec (.effectStart 1 3 7000) (table [(1, { inState 1 with duration := 500, elapsedTime := 9 })]))).slot 1
        = { inState 3 with duration := 1500, startTime := 7000 })
      ∧ ((nextOf (exec (.effectStart 1 3 0) (table [(1, { inState 1 with duration := 30000 })]))).slot 1).duration
        = 24464 := by decide
/-- R105: the loop counts 0, 1, 254 and 255; R172: a free slot becomes `0b10`. -/
theorem test_effectStart_loops :
    ((nextOf (exec (.effectStart 1 0 0) (table [(1, { inState 1 with duration := 500 })]))).slot 1).duration = 500
      ∧ ((nextOf (exec (.effectStart 1 1 0) (table [(1, { inState 1 with duration := 500 })]))).slot 1).duration = 500
      ∧ ((nextOf (exec (.effectStart 1 254 0) (table [(1, { inState 1 with duration := 2 })]))).slot 1).duration = 508
      ∧ ((nextOf (exec (.effectStart 1 255 0) (table [(1, { inState 1 with duration := 2 })]))).slot 1).duration
        = 0x7FFF
      ∧ ((nextOf (exec (.effectStart 5 1 0) blank)).slot 5).state = 2 := by decide
/-- R106's example, without the pool (its amount is the implementation's). -/
theorem test_effectStartSolo :
    let s := nextOf (exec (.effectStartSolo 2 9 9000) (table [(1, inState 3), (2, { inState 3 with duration := 7 })]))
    s.slot 1 = inState 1 ∧ s.slot 2 = { inState 3 with duration := 7, startTime := 9000 } := by decide
/-- R92's example: `stopAll` credits the pool N + 1 times. -/
theorem test_startSolo_out_of_range :
    let s := startSolo cfg 15 9 ((table [(1, inState 3), (2, inState 3), (3, inState 1)]).setPool 704)
    (s.slot 1).state = 1 ∧ (s.slot 2).state = 1 ∧ (s.slot 3).state = 1 ∧ s.pool = 1664 := by decide
theorem test_effectStop : ((nextOf (exec (.effectStop 3 0) (table [(3, inState 3)]))).slot 3) = inState 1 := by decide
/-- 95_test_vectors.md A12 and A4. -/
theorem test_stop_pool :
    (stop cfg 1 (blank.setPool 65472)).pool = 0 ∧ (stop cfg 14 (blank.setPool 0)).pool = 64
      ∧ (stop cfg 0 blank).pool = 896 ∧ (stop cfg 15 blank).pool = 896 ∧ (stop cfg 200 blank).pool = 896 := by decide
/-- R88's example, and an index out of range. -/
theorem test_blockFree :
    let s := (table [(1, inState 1), (2, inState 3), (3, inState 1)]).setCursor 4
    ((nextOf (exec (.blockFree 2) s)).slot 2).state = 0 ∧ (nextOf (exec (.blockFree 2) s)).cursor = 2
      ∧ (nextOf (exec (.blockFree 2) s)).pool = s.pool ∧ (nextOf (exec (.blockFree 14) s)).cursor = 4
      ∧ (nextOf (exec (.blockFree 0) s)).cursor = 4 := by decide
theorem test_blockFreeAll :
    let s := nextOf (exec .blockFreeAll ((table [(2, { inState 3 with magnitude := 9 })]).setCursor 3))
    s.slot 2 = { Slot.zero with magnitude := 9 } ∧ s.cursor = 1 := by decide
theorem test_dcFreeAll :
    let s := nextOf (exec .dcFreeAll (((table [(2, inState 2)]).setCursor 3).setPaused true))
    s.slot 2 = Slot.zero ∧ s.cursor = 1 ∧ s.paused = true ∧ (freeAll cfg (blank.setPool 5)).pool = 896 := by decide
theorem test_dcStopAll :
    let s := nextOf (exec .dcStopAll (table [(1, inState 3), (14, inState 2)]))
    s.slot 1 = inState 1 ∧ s.slot 14 = Slot.zero ∧ (stopAll cfg (blank.setPool 704)).pool = 1664 := by decide
theorem test_dcPause : (nextOf (exec .dcPause blank)).paused = true := by decide
theorem test_dcContinue : (nextOf (exec .dcContinue (blank.setPaused true))).paused = false := by decide
theorem test_deviceGain : (nextOf (exec (.deviceGain 128) blank)).deviceGain = 128 := by decide

/-! ## Allocation and feature reads -/

/-- 95_test_vectors.md A1, and P1 step 10 (the second scan passes an occupied slot). -/
theorem test_create :
    (let s := nextOf (createWith cfg blank)
     s.slot 1 = inState 1 ∧ s.cursor = 2 ∧ s.pool = 832 ∧ s.response = some (.created 1 1 832))
      ∧ (nextOf (createWith cfg (table [(2, inState 1)]))).cursor = 3 := by decide
/-- R158; R87 (a), (e): a slot in state `0b10` is scanned over. -/
theorem test_create_full :
    (let s := nextOf (createWith cfg ((blank.setCursor 15).setPool 0))
     s.blockLoad = ⟨0, 2⟩ ∧ s.cursor = 15 ∧ s.response = some (.created 0 2 0))
      ∧ (nextOf (createWith cfg (table [(1, inState 2)]))).blockLoad = ⟨2, 1⟩ := by decide
/-- 95_test_vectors.md F2. -/
theorem test_blockLoadRecord : blockLoadRecord cfg ⟨1, 1⟩ 832 = #v[0xB1, 1, 1, 0x40, 3] := by decide
/-- 95_test_vectors.md F5. -/
theorem test_poolRecord : poolRecord cfg = #v[0xB2, 0x80, 3, 14, 77] := by decide

/-! ## The engines -/

/-- 95_test_vectors.md E1, E2, E5 and E9 at one elapsed time each. -/
theorem test_envelope :
    wave cfg { playing 1 with magnitude := 10000, duration := 1000, attackLevel := 2000, attackTime := 100,
                              elapsedTime := 25 } = 4000
      ∧ wave cfg { playing 1 with magnitude := 10000, duration := 1000, fadeTime := 200, elapsedTime := 801 } = 9950
      ∧ wave cfg { playing 1 with magnitude := BitVec.ofInt 16 (-10000), duration := 1000, attackLevel := 2000,
                                  attackTime := 100, elapsedTime := 25 } = -1000
      ∧ wave cfg { playing 1 with magnitude := 10000, fadeTime := 1000, elapsedTime := 40000 } = -72330 := by decide
/-- R126's last example: the sum is truncated, not the quotient. -/
theorem test_ramp :
    rawRamp { Slot.zero with startMagnitude := 2, endMagnitude := BitVec.ofInt 16 (-1), duration := 2, elapsedTime := 1 }
      = some 0 := by decide +kernel
/-- R127's examples. -/
theorem test_square :
    rawWave cfg { playing 3 with magnitude := 1000, offset := 100, period := 1000, elapsedTime := 500 } = some 1200
      ∧ rawWave cfg { playing 3 with magnitude := 1000, offset := 100, period := 1000, elapsedTime := 501 }
        = some (-800)
      ∧ rawWave cfg { playing 3 with magnitude := 1000, phase := 64, period := 1000, elapsedTime := 251 }
        = some (-1000) := by decide
/-- R128 with a sine unit that answers 1, and R11's ties. -/
theorem test_sine :
    rawWave cfg { playing 4 with magnitude := 100, offset := 5, period := 10, elapsedTime := 3 } = some 110
      ∧ roundHalfAway (5 / 2) = 3 ∧ roundHalfAway (-(5 / 2)) = -3 ∧ roundHalfAway (12 / 5) = 2 := by decide +kernel
/-- 95_test_vectors.md W23 and W26. -/
theorem test_triangle :
    rawWave cfg { playing 5 with magnitude := 1000, period := 300, elapsedTime := 151 } = some 937
      ∧ wave cfg { playing 5 with magnitude := 1000, offset := 250, gain := 128, period := 1000, elapsedTime := 300 }
        = 350 := by decide
/-- 95_test_vectors.md W28 and W32. -/
theorem test_sawtooth :
    rawWave cfg { playing 6 with magnitude := 1000, period := 300, elapsedTime := 299 } = some (-994)
      ∧ rawWave cfg { playing 7 with magnitude := 1000, period := 1000, phase := 128 } = some 2 := by decide

/-- The standard block of 95_test_vectors.md section 2.4. -/
def standard : ConditionBlock := ⟨0, 10000, 10000, 10000, 10000, 0⟩

/-- 95_test_vectors.md C1, C4, C7 and C9. -/
theorem test_condition :
    condN { playing 8 with cond0 := standard } .axis0 (1 / 2) = -5000
      ∧ condN { playing 8 with cond0 := standard, gain := 128 } .axis0 (1 / 2) = -2509
      ∧ condN { playing 8 with cond0 := ⟨1, 10000, 10000, 10000, 10000, 0⟩ } .axis0 (999 / 1000) = -9989
      ∧ condN { playing 8 with cond0 := ⟨0, BitVec.ofInt 16 (-10000), 10000, 10000, 10000, 0⟩ } .axis0 (1 / 2)
        = 5000 := by decide +kernel
/-- 95_test_vectors.md C13 and C15: which block an axis reads. -/
theorem test_condition_blocks :
    condN { playing 8 with cond0 := standard, conditionBlocksCount := 2 } .axis1 (1 / 2) = 0
      ∧ condN { playing 8 with cond0 := standard, conditionBlocksCount := 1 } .axis1 (1 / 2) = -5000 := by
  decide +kernel
/-- 95_test_vectors.md C17. -/
theorem test_inertia :
    let smp (acc pos : Int) : SampleRecord :=
      { noSamples with inertiaAcc := BitVec.ofInt 32 acc, inertiaMax := 1000, frictionPos := BitVec.ofInt 32 pos }
    let r := { playing 10 with cond0 := standard }
    inertiaForce defaultInertia r .axis0 (smp (-500) (-3)) = -5000
      ∧ inertiaForce defaultInertia r .axis0 (smp (-500) 3) = 5000
      ∧ inertiaForce defaultInertia r .axis0 (smp (-500) 0) = 0
      ∧ inertiaForce defaultInertia r .axis0 (smp 500 (-3)) = 0
      ∧ inertiaForce defaultInertia { r with gain := 0 } .axis0 (smp (-500) (-3)) = 0 := by
  decide +kernel

/-! ## The tick -/

/-- The table of 44_force_reducer.md R150. -/
theorem test_rescale :
    rescale cfg 39 = 0 ∧ rescale cfg 40 = 1 ∧ rescale cfg (-1) = -1 ∧ rescale cfg (-40) = -2
      ∧ rescale cfg 5000 = 127 ∧ rescale cfg (-5000) = -128 ∧ rescale cfg 20000 = 255
      ∧ rescale cfg (-10001) = -255 := by decide
/-- R149's two examples, and the map after the total gain. -/
theorem test_outputForce :
    totalGained cfg 510000 = 5100 ∧ totalGained cfg (-123456) = -1234 ∧ outputForce cfg 500000 = 127
      ∧ outputForce cfg (-99) = 0 ∧ outputForce cfg (-100) = -1 := by decide
/-- R142's example. -/
theorem test_tick :
    let s := nextOf (tickWith cfg 150 noSamples noSamples
      (table [(1, { playing 1 with duration := 1000, magnitude := 5000, startTime := 100 })]))
    s.response = some (.forces 127 127) ∧ (s.slot 1).elapsedTime = 50 := by decide +kernel
/-- 95_test_vectors.md P3 step 7: the two axes differ through their samples. -/
theorem test_tick_axes :
    (nextOf (tickWith cfg 110 (spring 500) (spring (-250)) (table
        [(1, { playing 1 with magnitude := 3000, startTime := 100 }),
         (2, { playing 8 with cond0 := ⟨0, 8000, 8000, 10000, 10000, 0⟩, conditionBlocksCount := 1,
                              startTime := 100 })]))).response
      = some (.forces (BitVec.ofInt 16 (-26)) 127) := by decide +kernel
/-- 95_test_vectors.md T12, T8: the skip test, and the elapsed time of a clock that ran backwards. -/
theorem test_visited :
    ({ playing 1 with duration := 1000, elapsedTime := 1000 } : Slot).visited = true
      ∧ ({ playing 1 with duration := 1000, elapsedTime := 1001 } : Slot).visited = false
      ∧ ({ playing 1 with elapsedTime := 40000 } : Slot).visited = true ∧ (inState 2).visited = false
      ∧ elapsedSince 90 100 = 65526 ∧ elapsedSince 65736 100 = 100 := by decide

/-! ## Steps -/

/-- A word placed by `withFetchWord` is what the very next step after reset runs. -/
theorem test_step_withFetchWord :
    (nextOf (step (State.reset.withFetchWord 128 0x800D))).deviceGain = 128 := by decide
/-- R54, R163: the report is served before the tick that arrived first. -/
theorem test_step_reports_first :
    let t : Request := ⟨4, noReport, 150, noSamples, noSamples⟩
    let s := nextOf (step (blank.setPending [t, rep 0x0C050000000000000000000000000000]))
    s.paused = true ∧ s.pending = [t] := by decide
/-- R60, R169. -/
theorem test_step_reserved_and_reset :
    (nextOf (step (blank.setPending [bareRequest 5]))) = blank.setResponse (some .empty)
      ∧ (nextOf (step { blank with resetInput := .duringTransaction,
                                     pending := [bareRequest 1, bareRequest 2] })).pending
        = [bareRequest 2] := by decide

/-! ## Witnesses: states and operands that meet the hypotheses of an obligation, at the boundaries of its clauses -/

/-- R46: the range test of every indexed command at its boundaries. -/
theorem witness_index_range :
    inRange 0 = false ∧ inRange 1 = true ∧ inRange 14 = true ∧ inRange 15 = false ∧ inRange 255 = false := by decide

theorem witness_ReportFieldsSitAtTheirOffsets :
    (bytesOfHex 0x01000000000000000000000000000000)[0] = 1 ∧ (bytesOfHex 0x06000000000000000000000000000000)[0] = 6
      ∧ (bytesOfHex 0x0A000100000000000000000000000000)[2] = 1
      ∧ (bytesOfHex 0x0BFE0000000000000000000000000000)[1] = 254
      ∧ (bytesOfHex 0x0C060000000000000000000000000000)[1] = 6 := by decide

theorem witness_DecodeInvertsEncode :
    (Instr.blockFree 254).wellFormed = true ∧ (encode (.blockFree 254)).kind = 0
      ∧ (Instr.tick 0 noSamples noSamples).wellFormed = true := by decide

theorem witness_DecodedCommandsAreWellFormed :
    decode (rep 0x0BFE0000000000000000000000000000) = .ok (.blockFree 254) := by decide

theorem witness_KindsSelectTransactions :
    (rep 0).kind = 0 ∧ (bareRequest 1).kind = 1 ∧ (bareRequest 2).kind = 2 ∧ (bareRequest 3).kind = 3
      ∧ (bareRequest 4).kind = 4 ∧ 5 ≤ (bareRequest 5).kind.toNat ∧ 5 ≤ (bareRequest 7).kind.toNat := by decide

/-- Two reports that differ in the first byte their layout does not name; their clock operands may differ. -/
theorem witness_UnnamedBytesAreIgnored :
    let b := bytesOfHex 0x0101010101010101AA00000000000000
    let b' := bytesOfHex 0x0101010101010101AAFF000000000000
    (∀ k (h : k < 16), k < layoutLength b[0] → b[k] = b'[k]) ∧ b ≠ b'
      ∧ ¬ (b[0] = 10 ∧ (b[2] = 1 ∨ b[2] = 2)) := by decide

theorem witness_StepRunsTheDecodedCommand :
    let s := blank.setPending [rep 0x0BFE0000000000000000000000000000]
    s.resetInput = .released ∧ acceptNext s.pending = some (rep 0x0BFE0000000000000000000000000000, [])
      ∧ decode (rep 0x0BFE0000000000000000000000000000) = .ok (.blockFree 254) := by decide

theorem witness_FetchWordRunsNext : decodeTableWord 128 0x800D = some (.deviceGain 128) := by decide

/-- Both clauses: a host request behind two ticks, and ticks alone. -/
theorem witness_HostRequestsBeforeTicks :
    let t : Request := ⟨4, noReport, 150, noSamples, noSamples⟩
    (∀ q ∈ [t, t], q.kind = 4) ∧ (bareRequest 1).kind ≠ 4 ∧ decode (bareRequest 1) = .ok .create
      ∧ (blank.setPending ([t, t] ++ bareRequest 1 :: [])).resetInput = .released
      ∧ decode t = .ok (.tick 150 noSamples noSamples) := by decide

theorem witness_ReservedKindChangesNothing :
    (∀ k ∈ [5, 6, 7], acceptNext (blank.setPending [bareRequest k]).pending = some (bareRequest k, []))
      ∧ blank.resetInput = .released := by decide

/-- Each clause. -/
theorem witness_ResetEvent :
    ({ blank with resetInput := .betweenTransactions } : State).resetInput = .betweenTransactions
      ∧ ({ blank with resetInput := .duringTransaction } : State).resetInput = .duringTransaction
      ∧ acceptNext [bareRequest 1, bareRequest 2] = some (bareRequest 1, [bareRequest 2])
      ∧ ({ blank with resetInput := .duringTransaction } : State).pending = [] := by decide

theorem witness_EveryTransactionIsAnswered :
    (blank.setPending [bareRequest 7]).resetInput = .released
      ∧ (blank.setPending [bareRequest 7]).pending ≠ []
      ∧ (blank.setResponse (some .empty)).resetInput = .released ∧ (blank.setResponse (some .empty)).pending = [] := by
  decide

theorem witness_PlainOverwritesAreIdempotent :
    plainOverwrite (.blockFree 14) = true ∧ plainOverwrite .dcFreeAll = true
      ∧ plainOverwrite (.setEffect 1 0 0 0 0 0 0) = true := by decide

theorem witness_AcceptedReportsChangeNothing :
    (bytesOfHex 0x07000000000000000000000000000000)[0] = 7 ∧ (bytesOfHex 0x08000000000000000000000000000000)[0] = 8
      ∧ (bytesOfHex 0x0E000000000000000000000000000000)[0] = 14
      ∧ (bytesOfHex 0x0C010000000000000000000000000000)[1] = 1
      ∧ (bytesOfHex 0x0C020000000000000000000000000000)[1] = 2 := by decide

/-- Each disjunct of R117 at its boundaries. -/
theorem witness_IgnoredReportsChangeNothing :
    (bytesOfHex 0x00000000000000000000000000000000)[0] = 0 ∧ (bytesOfHex 0x09000000000000000000000000000000)[0] = 9
      ∧ 15 ≤ (bytesOfHex 0x0F000000000000000000000000000000)[0].toNat
      ∧ 15 ≤ (bytesOfHex 0xFF000000000000000000000000000000)[0].toNat
      ∧ (bytesOfHex 0x0A000000000000000000000000000000)[2] = 0
      ∧ 4 ≤ (bytesOfHex 0x0A000400000000000000000000000000)[2].toNat
      ∧ 4 ≤ (bytesOfHex 0x0A00FF00000000000000000000000000)[2].toNat
      ∧ (bytesOfHex 0x0C000000000000000000000000000000)[1] = 0
      ∧ 7 ≤ (bytesOfHex 0x0C070000000000000000000000000000)[1].toNat
      ∧ 7 ≤ (bytesOfHex 0x0CFF0000000000000000000000000000)[1].toNat := by
  decide

theorem witness_FreeAllCommandsRestoreTheAllocator :
    Instr.blockFreeAll = .blockFreeAll ∨ Instr.blockFreeAll = .dcFreeAll := by decide

/-- A table whose slots 1..13 are occupied, with the cursor at 1. -/
def thirteen : State := table ((List.range' 1 13).map fun i => (i, inState 1))

/-- A table whose slots 1..14 are occupied, with the cursor at 1. -/
def fourteen : State := table ((List.range' 1 14).map fun i => (i, inState 1))

/-- The first clause at `id = 14` and at `id = cursor`. -/
theorem witness_CreateAllocates :
    (thirteen.cursor.toNat ≤ 14 ∧ (thirteen.slot 14).state = 0
        ∧ ∀ j, thirteen.cursor.toNat ≤ j → j < 14 → (thirteen.slot j).state ≠ 0)
      ∧ blank.cursor.toNat ≤ 1 ∧ (blank.slot 1).state = 0
      ∧ ∀ j, blank.cursor.toNat ≤ j → j < 1 → (blank.slot j).state ≠ 0 := by
  refine ⟨⟨by decide, by decide, fun j h1 h2 => ?_⟩, by decide, by decide, fun j h1 h2 => ?_⟩
  · have h3 : 1 ≤ j := h1
    interval_cases j <;> decide
  · have h3 : 1 ≤ j := h1
    omega

/-- The second clause with the cursor at 1 and at 15. -/
theorem witness_CreateReportsCapacity :
    (∀ j, fourteen.cursor.toNat ≤ j → j ≤ 14 → (fourteen.slot j).state ≠ 0)
      ∧ ∀ j, (blank.setCursor 15).cursor.toNat ≤ j → j ≤ 14 → ((blank.setCursor 15).slot j).state ≠ 0 := by
  refine ⟨fun j h1 h2 => ?_, fun j h1 h2 => ?_⟩
  · have h3 : 1 ≤ j := h1
    interval_cases j <;> decide
  · have h3 : 15 ≤ j := h1
    omega

/-- A free slot 14 above thirteen occupied ones, and slot 1 where nothing is occupied. -/
theorem witness_CreateReturnsTheLowestFreeIndex :
    CursorInRange (thirteen.setCursor 14) ∧ CursorSound (thirteen.setCursor 14)
      ∧ ((thirteen.setCursor 14).slot 14).state = 0
      ∧ (∀ j, 1 ≤ j → j < 14 → ((thirteen.setCursor 14).slot j).state ≠ 0)
      ∧ CursorInRange blank ∧ CursorSound blank ∧ (blank.slot 1).state = 0 := by
  refine ⟨by unfold CursorInRange; decide, fun j h1 h2 => ?_, by decide, fun j h1 h2 => ?_,
    by unfold CursorInRange; decide, fun j h1 h2 => ?_, by decide⟩
  · have h3 : j < 14 := h2
    interval_cases j <;> decide
  · interval_cases j <;> decide
  · have h3 : j < 1 := h2
    omega

/-- The freed index is the highest slot of a full table. -/
theorem witness_FreeThenCreateReusesTheIndex :
    CursorInRange (fourteen.setCursor 15) ∧ CursorSound (fourteen.setCursor 15)
      ∧ ∀ j, 1 ≤ j → j < (14 : Byte).toNat → ((fourteen.setCursor 15).slot j).state ≠ 0 := by
  refine ⟨by unfold CursorInRange; decide, fun j h1 h2 => ?_, fun j h1 h2 => ?_⟩
  · have h3 : j < 15 := h2
    interval_cases j <;> decide
  · have h3 : j < 14 := h2
    interval_cases j <;> decide

/-- Every row of R147's table, its gap at both ends, and a record that is visited. -/
theorem witness_TickServesVisitedSlots :
    (∀ k ∈ [1, 2, 3, 4, 5, 6, 7, 8, 9, 10, 11], (playing (BitVec.ofNat 8 k)).effectType = BitVec.ofNat 8 k)
      ∧ (playing 0).effectType = 0 ∧ 12 ≤ (playing 12).effectType.toNat ∧ 12 ≤ (playing 255).effectType.toNat
      ∧ (playing 1).visited = true
      ∧ contribution cfg { playing 8 with cond0 := standard } .axis0 (spring 500) = -500000 := by decide +kernel

theorem witness_PausedTickIsSilent : (blank.setPaused true).paused = true := by decide

/-- Slot 1 comes from the first state, slot 14 from the second, both playing. -/
theorem witness_TickIsAdditive :
    ∀ k, 1 ≤ k → k ≤ 14 →
      ((table [(1, playing 1), (14, playing 8)]).slot k = (table [(1, playing 1)]).slot k
          ∧ ((table [(14, playing 8)]).slot k).visited = false)
        ∨ ((table [(1, playing 1), (14, playing 8)]).slot k = (table [(14, playing 8)]).slot k
          ∧ ((table [(1, playing 1)]).slot k).visited = false) := by
  intro k h1 h2
  interval_cases k <;> decide

/-- The lowest and the highest waveform type, playing. -/
theorem witness_WaveformsPushBothAxesAlike :
    ∀ k, 1 ≤ k → k ≤ 14 → ((table [(1, playing 1), (14, playing 7)]).slot k).visited = true →
      1 ≤ ((table [(1, playing 1), (14, playing 7)]).slot k).effectType.toNat
        ∧ ((table [(1, playing 1), (14, playing 7)]).slot k).effectType.toNat ≤ 7 := by
  intro k h1 h2
  interval_cases k <;> decide

theorem witness_FullGainIsTransparent :
    let r : Slot := { playing 3 with magnitude := 1000, period := 2, duration := 9, fadeTime := 4, elapsedTime := 5 }
    r.gain = 255 ∧ r.attackTime = 0 ∧ r.magnitude ≠ 0
      ∧ r.elapsedTime.toNat + r.fadeTime.toNat ≤ r.duration.toNat ∧ rawWave cfg r = some 1000 := by decide

/-- A condition type, a waveform type and Inertia. -/
theorem witness_ZeroGainIsSilent :
    ({ playing 9 with gain := 0 } : Slot).gain = 0 ∧ ({ playing 1 with gain := 0 } : Slot).gain = 0
      ∧ ({ playing 10 with gain := 0 } : Slot).gain = 0 := by decide

/-- Each clause. -/
theorem witness_DegenerateParametersContributeZero :
    (inState 3).magnitude = 0 ∧ ({ playing 2 with duration := 0 } : Slot).duration = 0 ∧ (playing 2).effectType = 2
      ∧ (playing 3).period = 0 ∧ (playing 7).effectType = 7 ∧ (playing 1).fadeTime = 0
      ∧ (playing 1).duration.toNat < ({ playing 1 with elapsedTime := 32768 } : Slot).elapsedTime.toNat
      ∧ 1 ≤ (playing 1).effectType.toNat ∧ 1 ≤ (playing 7).effectType.toNat ∧ (playing 7).effectType.toNat ≤ 7
      ∧ wave cfg (playing 1) = 0 ∧ noSamples.springMax = 0 ∧ noSamples.damperMax = 0 ∧ noSamples.inertiaMax = 0
      ∧ noSamples.frictionMax = 0 ∧ (playing 8).effectType = 8 ∧ (playing 9).effectType = 9
      ∧ (playing 10).effectType = 10 ∧ (playing 11).effectType = 11 := by decide

/-- The Sine clause at a period of 0 and at another: half of an odd magnitude is a tie. -/
theorem witness_DegenerateParametersContributeZero_sine :
    let half : Config := { cfg with sin := fun _ => 1 / 2 }
    (playing 4).effectType = 4 ∧ (playing 4).period = 0
      ∧ ({ playing 4 with period := 1000, elapsedTime := 250, phase := 9000 } : Slot).period ≠ 0
      ∧ ((250 : Nat) : Rat) / ((1000 : Nat) : Rat) * 2 * cfg.pi + ((9000 : Nat) : Rat) / 36000 = 7 / 4
      ∧ rawWave half { playing 4 with magnitude := 7 } = some 4
      ∧ rawWave half { playing 4 with magnitude := BitVec.ofInt 16 (-7), period := 1000 } = some (-4) := by
  decide +kernel

/-- One record in each branch: the first tick of the fade window, the last of the attack, and neither; and a Square within
its attack window (R120 to R123: `tdiv(4800 × -10000, 10000)`), and one in a fade window of no length. -/
theorem witness_ConstantFollowsTheEnvelope :
    let r : Slot := { playing 1 with magnitude := 1000, duration := 1000, attackTime := 100, fadeTime := 200 }
    r.effectType = 1 ∧ r.magnitude ≠ 0 ∧ (1000 : Int) = Int.tdiv (r.magnitude.toInt * r.gain.toNat) 255
      ∧ (0 : Int) = Int.tdiv (r.attackLevel.toNat * r.gain.toNat) 255 ∧ r.duration.toNat - r.fadeTime.toNat < 801
      ∧ ¬ r.duration.toNat - r.fadeTime.toNat < 800 ∧ 99 < r.attackTime.toNat
      ∧ (let q : Slot := { playing 3 with magnitude := 10000, duration := 1000, attackLevel := 2000, attackTime := 100,
                                          period := 20, elapsedTime := 35 }
        q.magnitude ≠ 0 ∧ rawWave cfg q = some (-10000) ∧ wave cfg q = -4800)
      ∧ rawWave cfg { playing 3 with magnitude := 1, period := 1, elapsedTime := 32768 } = some 1 := by decide

/-- The last high and the first low time unit of a period of 5 (R127 (a)), and R127's example with a phase. -/
theorem witness_SquareIsHighFirst :
    let r : Slot := { playing 3 with magnitude := 7, period := 5, elapsedTime := 2 }
    r.effectType = 3 ∧ r.phase = 0 ∧ r.elapsedTime.toNat < r.period.toNat ∧ rawWave cfg r = some 7
      ∧ rawWave cfg { r with elapsedTime := 3 } = some (-7) ∧ r.period ≠ 0
      ∧ (251 + 64 * 1000 / 255) % 1000 = 501 ∧ ¬ 501 ≤ 1000 / 2 := by decide

/-- 95_test_vectors.md W23, W28 and W31 at one elapsed time each; and the flat clause, at the lowest period it admits. -/
theorem witness_FlatWhereTheSlopeTruncates :
    let r : Slot := { playing 5 with magnitude := 100, period := 401 }
    rawWave cfg { playing 5 with magnitude := 1000, period := 300, elapsedTime := 299 } = some (-987)
      ∧ rawWave cfg { playing 6 with magnitude := 1000, period := 300, elapsedTime := 150 } = some (-100)
      ∧ rawWave cfg { playing 7 with magnitude := 1000, period := 300, elapsedTime := 299 } = some 794
      ∧ (299 : Int) = (299 + Int.fdiv (0 * 300) 255) % 300
      ∧ (r.effectType = 5 ∧ 4 * r.magnitude.toInt.natAbs < r.period.toNat)
      ∧ rawWave cfg { r with elapsedTime := 77 } = some (-100)
      ∧ rawWave cfg { playing 6 with magnitude := 100, period := 201, elapsedTime := 77 } = some (-100) := by decide

theorem witness_PeriodicWavesRepeat :
    (playing 3).effectType = 3
      ∧ (1007 : Half).toNat = ({ playing 3 with elapsedTime := 7, period := 1000 } : Slot).elapsedTime.toNat
        + ({ playing 3 with elapsedTime := 7, period := 1000 } : Slot).period.toNat := by decide

theorem witness_RampIsOneIntegerDivision : (playing 2).effectType = 2 ∧ (playing 2).duration ≠ 0 := by decide

theorem witness_ConditionLawOverIntegers :
    (1 : Sample).toInt ≠ 0 ∧ (BitVec.intMin 32).toInt ≠ 0 := by decide

/-- Both ends of a dead zone, and each of the other clauses at its boundary: the counts 1 and 2, the types 8 and 11, and
two records that differ in what the law does not read. -/
theorem witness_ConditionLawEdgeCases :
    (((standard.cpOffset.toInt - standard.deadBand.toNat : Int) : Rat) ≤ 0
        ∧ (0 : Rat) ≤ ((standard.cpOffset.toInt + standard.deadBand.toNat : Int) : Rat))
      ∧ (inState 3).cond0 = .zero ∧ (inState 3).cond1 = .zero
      ∧ ({ playing 8 with conditionBlocksCount := 1 } : Slot).conditionBlocksCount.toNat ≤ 1
      ∧ 1 < ({ playing 8 with conditionBlocksCount := 2 } : Slot).conditionBlocksCount.toNat
      ∧ 8 ≤ (playing 8).effectType.toNat ∧ (playing 11).effectType.toNat ≤ 11 ∧ (playing 11).cond0 = .zero
      ∧ (playing 11).cond1 = .zero
      ∧ (let r : Slot := { playing 10 with elapsedTime := 9, directionX := 7, magnitude := 3 }
        r ≠ playing 10 ∧ r.effectType = (playing 10).effectType ∧ r.gain = (playing 10).gain
          ∧ r.conditionBlocksCount = (playing 10).conditionBlocksCount ∧ r.cond0 = (playing 10).cond0
          ∧ r.cond1 = (playing 10).cond1) := by decide +kernel

/-- The invariants hold of a table with a playing, an allocated and a stranded slot; the stranded one is above the
cursor. -/
theorem witness_invariants :
    let s := (table [(1, inState 3), (2, inState 1), (14, inState 2)]).setCursor 3
    Inv s ∧ CursorSound s ∧ NoneStranded s ∧ ∃ t, step s = .next t := by
  refine ⟨⟨by unfold CursorInRange; decide, by unfold SentinelClear; decide, fun i => ?_,
      by unfold BlockLoadLegal; decide⟩, fun i h1 h2 => ?_, fun i h1 h2 => ?_, _, rfl⟩
  · by_cases h : i < 15
    · interval_cases i <;> decide
    · rw [State.slot_of_ge _ (by omega)]; decide
  · have h3 : i < 3 := h2
    interval_cases i <;> decide
  · have h3 : i < 3 := h2
    interval_cases i <;> decide

/-- The clauses of StepKeepsTheCursorSound that ask for no `NoneStranded`: slot 1 is stranded below the cursor, what is
pending or run stops no slot, or stops one that is not stranded, is at the cursor, or is out of range. -/
theorem witness_StepKeepsTheCursorSound :
    let s := ((table [(1, inState 2), (2, inState 3), (3, inState 2)]).setCursor 3).setPending [bareRequest 1]
    Inv s ∧ CursorSound s ∧ ¬ NoneStranded s
      ∧ (s.resetInput = .released ∧ acceptNext s.pending = some (bareRequest 1, [])
        ∧ decode (bareRequest 1) = .ok .create ∧ stopsSlots .create = false)
      ∧ stopsSlots (.effectStart 1 0 0) = false
      ∧ ∀ index ∈ ([0, 2, 3, 15] : List Byte),
        ¬ (1 ≤ index.toNat ∧ index.toNat < s.cursor.toNat ∧ (s.slot index.toNat).state = 0b10) := by
  refine ⟨⟨by unfold CursorInRange; decide, by unfold SentinelClear; decide, fun i => ?_,
      by unfold BlockLoadLegal; decide⟩, fun i h1 h2 => ?_, fun h => ?_, by decide, by decide, by decide⟩
  · by_cases h : i < 15
    · interval_cases i <;> decide
    · rw [State.slot_of_ge _ (by omega)]; decide
  · have h3 : i < 3 := h2
    interval_cases i <;> decide
  · exact absurd (h 1 (by decide) (by decide)) (by decide)

theorem witness_StoppingAStrandedSlotBreaksTheCursor :
    let s := (table [(14, inState 2)]).setCursor 15
    (14 : Byte).toNat ≤ 14 ∧ (14 : Byte).toNat < s.cursor.toNat ∧ (s.slot (14 : Byte).toNat).state = 0b10 := by decide

theorem witness_OnlyPauseCommandsWriteThePauseFlag :
    Instr.dcFreeAll ≠ .dcPause ∧ Instr.dcFreeAll ≠ .dcContinue := by decide

end Sys2Proof.Tests
end

section
/-! PROOFS. What a step with the reset input released does with the accepted request (spec/00_scope.md R14,
spec/20_memory.md R54). -/

namespace Sys2Proof.Machine

/-- R14: outside a reset event a step is one transaction. -/
theorem step_of_released {s : State} (hreset : s.resetInput = .released) : step s = transact s := by
  unfold step
  rw [hreset]

/-- R52, R54: the transaction of an accepted request that names a command is the meaning of that command. -/
theorem transact_of_decode_ok {s : State} {r : Request} {rest : List Request} {i : Instr}
    (haccept : acceptNext s.pending = some (r, rest)) (hdecode : decode r = .ok i) :
    transact s = exec i (s.setPending rest) := by
  unfold transact
  simp only [haccept, hdecode]

/-- Settles O8: the step is a transaction, and the transaction runs the decoded command. -/
theorem stepRunsTheDecodedCommand : Obligations.StepRunsTheDecodedCommand := by
  intro s r rest i hreset haccept hdecode
  calc step s = transact s := step_of_released hreset
    _ = exec i (s.setPending rest) := transact_of_decode_ok haccept hdecode

end Sys2Proof.Machine
end

section
/-! PROOFS. Further facts about records and the allocator (spec/10_state.md R20, spec/40_effect_table.md R87, R88;
spec/45_feature_reports.md R152): the legal values of a state byte, two changes of one record, the scan's answer. -/

namespace Sys2Proof.Machine

/-! ## State bytes -/

theorem Slot.eligible_iff (r : Slot) : r.eligible = true ↔ r.state = 0 := beq_iff_eq

theorem Slot.eligible_eq_false_iff (r : Slot) : r.eligible = false ↔ r.state ≠ 0 := beq_eq_false_iff_ne

@[simp] theorem Slot.clearPlaying_state (r : Slot) : r.clearPlaying.state = r.state &&& allocatedState := rfl

@[simp] theorem Slot.setConditionBlock_state (r : Slot) (k : Byte) (b : ConditionBlock) :
    (r.setConditionBlock k b).state = r.state := by
  unfold Slot.setConditionBlock
  split
  · rfl
  · split <;> rfl

theorem Slot.ticked_state (now : Stamp) (r : Slot) : (r.ticked now).state = r.state := by
  unfold Slot.ticked
  split <;> rfl

/-- R20: a state byte with bits 7..2 clear has one of four values. -/
theorem legalState_cases {v : Byte} (h : v.toNat < 4) : v = 0b00 ∨ v = 0b01 ∨ v = 0b10 ∨ v = 0b11 := by
  bv_omega

/-- R90: setting the playing bit gives a legal state byte, and never the free one. -/
theorem setPlaying_legal {v : Byte} (h : v.toNat < 4) :
    (v ||| playingMask).toNat < 4 ∧ v ||| playingMask ≠ 0 := by
  rcases legalState_cases h with rfl | rfl | rfl | rfl <;> decide

/-- R91: clearing the playing bit gives a legal state byte. -/
theorem clearPlaying_legal {v : Byte} (h : v.toNat < 4) : (v &&& allocatedState).toNat < 4 := by
  rcases legalState_cases h with rfl | rfl | rfl | rfl <;> decide

/-- R42: a stop frees an occupied record only where it is playing without being allocated. -/
theorem clearPlaying_ne_zero {v : Byte} (h : v.toNat < 4) (hfree : v ≠ 0) (hstranded : v ≠ 0b10) :
    v &&& allocatedState ≠ 0 := by
  rcases legalState_cases h with rfl | rfl | rfl | rfl
  case inl => exact absurd rfl hfree
  case inr.inl => decide
  case inr.inr.inl => exact absurd rfl hstranded
  case inr.inr.inr => decide

/-! ## Records -/

/-- Two changes of the record that one index byte addresses are one change. -/
theorem State.updateTarget_updateTarget (s : State) (index : Byte) (f g : Slot → Slot) :
    (s.updateTarget index f).updateTarget index g = s.updateTarget index (g ∘ f) := by
  refine State.ext_slots (fun k => ?_) ?_ ?_ ?_ ?_ ?_ ?_ ?_ ?_
  case refine_1 =>
    simp only [State.updateTarget_slot, Function.comp_apply]
    split <;> rfl
  all_goals simp only [State.updateTarget_cursor, State.updateTarget_pool, State.updateTarget_paused,
    State.updateTarget_deviceGain, State.updateTarget_blockLoad, State.updateTarget_pending,
    State.updateTarget_resetInput, State.updateTarget_response]

/-- `start` on one record (R90). -/
def Slot.started (now : Stamp) (r : Slot) : Slot := { r.setPlaying with elapsedTime := 0, startTime := now }

theorem start_eq_updateTarget (index : Byte) (now : Stamp) (s : State) :
    start index now s = s.updateTarget index (Slot.started now) := rfl

/-! ## The allocator -/

/-- The scan's answer is the first free index at or above its start, and nothing else. -/
theorem nextEligible_eq {s : State} {a id : Nat} (hlow : a ≤ id) (hhigh : id ≤ 14) (hfree : (s.slot id).state = 0)
    (hocc : ∀ j, a ≤ j → j < id → (s.slot j).state ≠ 0) : nextEligible s a = id := by
  obtain ⟨hge, -, hskip, hstop⟩ := nextEligible_spec s (a := a) (by omega)
  rcases Nat.lt_trichotomy (nextEligible s a) id with hlt | heq | hgt
  · exact absurd ((Slot.eligible_iff _).mp (hstop (by omega))) (hocc _ hge hlt)
  · exact heq
  · exact absurd hfree ((Slot.eligible_eq_false_iff _).mp (hskip id hlow hgt))

/-- Whatever the cursor, an index that the scan hands out is at or above it, behind occupied records only. -/
theorem nextEligible_occupied_below {s : State} {a : Nat} (h : nextEligible s a ≤ 14) :
    a ≤ nextEligible s a ∧ ∀ j, a ≤ j → j < nextEligible s a → (s.slot j).state ≠ 0 := by
  have ha : a ≤ 15 := by
    by_contra hlt
    rw [nextEligible_of_gt s (by omega)] at h
    omega
  obtain ⟨hge, -, hskip, -⟩ := nextEligible_spec s ha
  exact ⟨hge, fun j hj hj' => (Slot.eligible_eq_false_iff _).mp (hskip j hj hj')⟩

/-- R152: CREATE where the allocator hands out nothing. -/
theorem createWith_of_none {c : Config} {s : State} (h : allocate c s = none) :
    createWith c s = answer (.created 0 2 s.pool) (s.setBlockLoad 0 2) := by
  simp [createWith, h]

/-- R152: CREATE where the allocator hands out a record. -/
theorem createWith_of_some {c : Config} {s t : State} {id : Nat} (h : allocate c s = some (id, t)) :
    createWith c s = answer (.created (BitVec.ofNat 8 id) 1 t.pool) (t.setBlockLoad (BitVec.ofNat 8 id) 1) := by
  simp [createWith, h]

end Sys2Proof.Machine
end

section
/-! PROOFS. Erasing what no rule reads: the device gain (spec/10_state.md R33) or the three direction fields of every
record (R23), and how the erasure passes through the shared operations. -/

namespace Sys2Proof.Machine

/-- The stored fields that no rule reads. -/
inductive Unread where
  | deviceGain
  | directions

/-- A record without an unread field. -/
def Slot.without (r : Slot) : Unread → Slot
  | .deviceGain => r
  | .directions => r.eraseDirections

/-- A state without an unread field. -/
def State.without (s : State) : Unread → State
  | .deviceGain => s.setDeviceGain 0
  | .directions => s.eraseDirections

/-- What a change of a record leaves in the other fields does not depend on the unread one. -/
def IgnoresUnread (f : Slot → Slot) : Prop := ∀ u r, (f (r.without u)).without u = (f r).without u

variable (s : State) (u : Unread)

/-! ## Records -/

@[simp] theorem Slot.without_without (r : Slot) : (r.without u).without u = r.without u := by cases u <;> rfl
@[simp] theorem Slot.without_visited (r : Slot) : (r.without u).visited = r.visited := by cases u <;> rfl
@[simp] theorem Slot.without_eligible (r : Slot) : (r.without u).eligible = r.eligible := by cases u <;> rfl
@[simp] theorem freshSlot_without : freshSlot.without u = freshSlot := by cases u <;> rfl

@[simp] theorem Slot.without_clearState (r : Slot) : (r.without u).clearState = r.clearState.without u := by
  cases u <;> rfl

@[simp] theorem Slot.without_clearPlaying (r : Slot) : (r.without u).clearPlaying = r.clearPlaying.without u := by
  cases u <;> rfl

@[simp] theorem Slot.without_ticked (now : Stamp) (r : Slot) :
    (r.without u).ticked now = (r.ticked now).without u := by
  unfold Slot.ticked
  rw [Slot.without_visited]
  cases u <;> split <;> rfl

theorem Slot.setConditionBlock_eraseDirections (r : Slot) (k : Byte) (b : ConditionBlock) :
    r.eraseDirections.setConditionBlock k b = (r.setConditionBlock k b).eraseDirections := by
  unfold Slot.setConditionBlock
  split
  · rfl
  · split <;> rfl

@[simp] theorem contribution_without (c : Config) (r : Slot) (a : Axis) (smp : SampleRecord) :
    contribution c (r.without u) a smp = contribution c r a smp := by cases u <;> rfl

/-! ## States -/

@[simp] theorem State.without_cursor : (s.without u).cursor = s.cursor := by cases u <;> rfl
@[simp] theorem State.without_pool : (s.without u).pool = s.pool := by cases u <;> rfl
@[simp] theorem State.without_paused : (s.without u).paused = s.paused := by cases u <;> rfl
@[simp] theorem State.without_blockLoad : (s.without u).blockLoad = s.blockLoad := by cases u <;> rfl
@[simp] theorem State.without_pending : (s.without u).pending = s.pending := by cases u <;> rfl
@[simp] theorem State.without_resetInput : (s.without u).resetInput = s.resetInput := by cases u <;> rfl

@[simp] theorem State.without_slot (k : Nat) : (s.without u).slot k = (s.slot k).without u := by
  cases u with
  | deviceGain => rfl
  | directions =>
    simp only [State.without, State.eraseDirections, State.slot, Slot.without, Vector.getElem_map]
    split <;> rfl

@[simp] theorem State.without_setSlot (i : Nat) (r : Slot) :
    (s.without u).setSlot i (r.without u) = (s.setSlot i r).without u := by
  cases u with
  | deviceGain => rfl
  | directions =>
    simp [State.without, State.eraseDirections, State.setSlot, Slot.without, Vector.map_setIfInBounds]

@[simp] theorem State.without_setCursor (v : Byte) : (s.without u).setCursor v = (s.setCursor v).without u := by
  cases u <;> rfl

@[simp] theorem State.without_setPool (v : Half) : (s.without u).setPool v = (s.setPool v).without u := by
  cases u <;> rfl

@[simp] theorem State.without_setPaused (v : Bool) : (s.without u).setPaused v = (s.setPaused v).without u := by
  cases u <;> rfl

@[simp] theorem State.without_setBlockLoad (i st : Byte) :
    (s.without u).setBlockLoad i st = (s.setBlockLoad i st).without u := by cases u <;> rfl

@[simp] theorem State.without_setPending (p : List Request) :
    (s.without u).setPending p = (s.setPending p).without u := by cases u <;> rfl

@[simp] theorem State.without_setResponse (r : Option Response) :
    (s.without u).setResponse r = (s.setResponse r).without u := by cases u <;> rfl

@[simp] theorem State.without_without : (s.without u).without u = s.without u := by
  cases u with
  | deviceGain => rfl
  | directions =>
    simp only [State.without, State.eraseDirections, Vector.map_map]
    rfl

/-- A device gain just written is erased, or does not depend on the directions. -/
theorem State.without_setDeviceGain (v : Byte) :
    ((s.without u).setDeviceGain v).without u = (s.setDeviceGain v).without u := by
  cases u with
  | deviceGain => rfl
  | directions => exact State.without_without (s.setDeviceGain v) .directions

end Sys2Proof.Machine
end

section
/-! PROOFS. What each command's meaning is made of (spec/41_report_dispatcher.md, spec/45_feature_reports.md R152 to
R154), and what a step can be (spec/00_scope.md R14, R15, R169): the case splits over commands and steps, made once for
the statements about all of them. -/

namespace Sys2Proof.Machine

/-- A change of a record that leaves its state byte or sets the playing bit in it. -/
def KeepsOrSetsPlaying (f : Slot → Slot) : Prop :=
  ∀ r, (f r).state = r.state ∨ (f r).state = r.state ||| playingMask

/-- The shapes of the commands' meanings. -/
inductive Meaning : Instr → Prop
  /-- The state is kept; the response is made from the two registers that the feature reads return. -/
  | reads {i : Instr} (resp : BlockLoad → Half → Response)
      (hexec : ∀ s, exec i s = answer (resp s.blockLoad s.pool) s) : Meaning i
  /-- One record is changed, the one that the index byte addresses. -/
  | updates {i : Instr} (index : Byte) (f : Slot → Slot)
      (hexec : ∀ s, exec i s = answer .empty (s.updateTarget index f)) (hstate : KeepsOrSetsPlaying f)
      (hunread : IgnoresUnread f) : Meaning i
  | stops (index loopCount : Byte) : Meaning (.effectStop index loopCount)
  | stopsAll : Meaning .dcStopAll
  | stopsAllThenStarts (index loopCount : Byte) (now : Stamp) : Meaning (.effectStartSolo index loopCount now)
  | frees (index : Byte) : Meaning (.blockFree index)
  | freesAll {i : Instr} (hexec : ∀ s, exec i s = answer .empty (freeAll Config.implementation s)) : Meaning i
  | pauses : Meaning .dcPause
  | continues : Meaning .dcContinue
  | setsDeviceGain (gain : Byte) : Meaning (.deviceGain gain)
  | creates : Meaning .create
  | ticks (now : Stamp) (samples0 samples1 : SampleRecord) : Meaning (.tick now samples0 samples1)

/-! ## The changes of a record -/

theorem KeepsOrSetsPlaying.of_keeps {f : Slot → Slot} (h : ∀ r, (f r).state = r.state) : KeepsOrSetsPlaying f :=
  fun r => .inl (h r)

/-- No record holds the device gain, so only the direction fields are in question. -/
theorem IgnoresUnread.of_directions {f : Slot → Slot}
    (h : ∀ r, (f r.eraseDirections).eraseDirections = (f r).eraseDirections) : IgnoresUnread f
  | .deviceGain, _ => rfl
  | .directions, r => h r

theorem started_ignoresUnread (now : Stamp) : IgnoresUnread (Slot.started now) := .of_directions fun _ => rfl

/-- R105: EFFECT_START as one change of one record. -/
theorem exec_effectStart (index loopCount : Byte) (now : Stamp) (s : State) :
    exec (.effectStart index loopCount now) s = answer .empty (s.updateTarget index
      (Slot.started now ∘ fun r => { r with duration := loopedDuration r.duration loopCount })) :=
  congrArg (answer .empty) (s.updateTarget_updateTarget index _ (Slot.started now))

/-- R106: EFFECT_START_SOLO as `stopAll` and then one change of one record. -/
theorem exec_effectStartSolo (index loopCount : Byte) (now : Stamp) (s : State) :
    exec (.effectStartSolo index loopCount now) s
      = answer .empty ((stopAll Config.implementation s).updateTarget index (Slot.started now)) :=
  congrArg (answer .empty) (start_eq_updateTarget index now _)

/-- R98: SET_CONDITION changes one record, or nothing where the block offset names no block. -/
theorem meaning_setCondition (index blockOffset : Byte) (cpOffset posCoef negCoef posSat negSat deadBand : Half) :
    Meaning (.setCondition index blockOffset cpOffset posCoef negCoef posSat negSat deadBand) := by
  by_cases hoffset : 1 < blockOffset.toNat
  · exact .reads (fun _ _ => .empty) fun s => congrArg (answer .empty) (if_pos hoffset)
  · refine .updates index _ (fun s => congrArg (answer .empty) (if_neg hoffset)) (.of_keeps fun r => ?_)
      (.of_directions fun r => ?_)
    · exact r.setConditionBlock_state ..
    · rw [Slot.setConditionBlock_eraseDirections]
      rfl

/-- Every command has a meaning of one of these shapes. -/
theorem meaning (i : Instr) : Meaning i := by
  cases i with
  | setEffect index =>
    exact .updates index _ (fun _ => rfl) (.of_keeps fun _ => rfl) (.of_directions fun _ => rfl)
  | setEnvelope index =>
    exact .updates index _ (fun _ => rfl) (.of_keeps fun _ => rfl) (.of_directions fun _ => rfl)
  | setCondition => exact meaning_setCondition ..
  | setPeriodic index =>
    exact .updates index _ (fun _ => rfl) (.of_keeps fun _ => rfl) (.of_directions fun _ => rfl)
  | setConstant index =>
    exact .updates index _ (fun _ => rfl) (.of_keeps fun _ => rfl) (.of_directions fun _ => rfl)
  | setRamp index =>
    exact .updates index _ (fun _ => rfl) (.of_keeps fun _ => rfl) (.of_directions fun _ => rfl)
  | effectStart index loopCount now =>
    exact .updates index _ (exec_effectStart index loopCount now) (fun _ => .inr rfl) (.of_directions fun _ => rfl)
  | effectStartSolo => exact .stopsAllThenStarts ..
  | effectStop => exact .stops ..
  | blockFreeAll => exact .freesAll fun _ => rfl
  | blockFree => exact .frees _
  | dcStopAll => exact .stopsAll
  | dcFreeAll => exact .freesAll fun _ => rfl
  | dcPause => exact .pauses
  | dcContinue => exact .continues
  | deviceGain => exact .setsDeviceGain _
  | create => exact .creates
  | getBlockLoad =>
    exact .reads (fun b p => .feature (blockLoadRecord Config.implementation b p)) fun _ => rfl
  | getPool => exact .reads (fun _ _ => .feature (poolRecord Config.implementation)) fun _ => rfl
  | tick => exact .ticks ..
  | custom7 => exact .reads (fun _ _ => .empty) fun _ => rfl
  | custom8 => exact .reads (fun _ _ => .empty) fun _ => rfl
  | custom14 => exact .reads (fun _ _ => .empty) fun _ => rfl
  | dcEnableActuators => exact .reads (fun _ _ => .empty) fun _ => rfl
  | dcDisableActuators => exact .reads (fun _ _ => .empty) fun _ => rfl
  | ignored => exact .reads (fun _ _ => .empty) fun _ => rfl

/-! ## Transactions and steps -/

/-- R15: a transaction where nothing is pending. -/
theorem transact_of_acceptNext_none {s : State} (haccept : acceptNext s.pending = none) : transact s = idle s := by
  unfold transact
  simp only [haccept]

/-- R60: the transaction of an accepted request of a reserved kind. -/
theorem transact_of_decode_error {s : State} {r : Request} {rest : List Request} {e : DecodeError}
    (haccept : acceptNext s.pending = some (r, rest)) (hdecode : decode r = .error e) :
    transact s = answerReserved (s.setPending rest) := by
  unfold transact
  simp only [haccept, hdecode]

/-- A step that is no reset event does nothing, answers a reserved kind, or runs the accepted command. -/
theorem transact_cases (s : State) :
    (acceptNext s.pending = none ∧ transact s = idle s)
      ∨ (∃ r rest, acceptNext s.pending = some (r, rest) ∧ transact s = answerReserved (s.setPending rest))
      ∨ ∃ r rest i, acceptNext s.pending = some (r, rest) ∧ decode r = .ok i
          ∧ transact s = exec i (s.setPending rest) := by
  rcases haccept : acceptNext s.pending with _ | ⟨r, rest⟩
  · exact .inl ⟨rfl, transact_of_acceptNext_none haccept⟩
  · rcases hdecode : decode r with e | i
    · exact .inr (.inl ⟨r, rest, rfl, transact_of_decode_error haccept hdecode⟩)
    · exact .inr (.inr ⟨r, rest, i, rfl, hdecode, transact_of_decode_ok haccept hdecode⟩)

/-- R169: a reset event leaves the state after reset, but for the requests still pending. -/
theorem step_of_reset_event {s : State} (hreset : s.resetInput ≠ .released) :
    ∃ p, step s = .next (State.reset.setPending p) := by
  unfold step
  cases h : s.resetInput with
  | released => exact absurd h hreset
  | betweenTransactions => exact ⟨_, rfl⟩
  | duringTransaction => exact ⟨_, rfl⟩

/-- What a step can do: take a reset event, leave all but the ports alone, or run a command. -/
theorem step_cases {s t : State} (hstep : step s = .next t) :
    (∃ p, t = State.reset.setPending p)
      ∨ (∃ p r, t = (s.setPending p).setResponse r)
      ∨ ∃ r rest i, s.resetInput = .released ∧ acceptNext s.pending = some (r, rest) ∧ decode r = .ok i
          ∧ exec i (s.setPending rest) = .next t := by
  by_cases hreset : s.resetInput = .released
  · rw [step_of_released hreset] at hstep
    rcases transact_cases s with ⟨-, htr⟩ | ⟨r, rest, -, htr⟩ | ⟨r, rest, i, haccept, hdecode, htr⟩
    all_goals rw [htr] at hstep
    · exact .inr (.inl ⟨s.pending, none, (Host.Outcome.next.inj hstep).symm⟩)
    · exact .inr (.inl ⟨rest, some .empty, (Host.Outcome.next.inj hstep).symm⟩)
    · exact .inr (.inr ⟨r, rest, i, hreset, haccept, hdecode, hstep⟩)
  · obtain ⟨p, hp⟩ := step_of_reset_event hreset
    rw [hp] at hstep
    exact .inl ⟨p, (Host.Outcome.next.inj hstep).symm⟩

end Sys2Proof.Machine
end

section
/-! PROOFS. The invariants of the state (spec/10_state.md R19, R20, R30, R34, R42): what a command does to the table,
the cursor and the block load record, and what each such change keeps. -/

namespace Sys2Proof.Machine

/-! ## What a command does to the table, the cursor and the block load record -/

/-- Every record keeps its state byte or has the playing bit set in it; the sentinel and the two registers are kept. -/
structure KeepsOccupied (s t : State) : Prop where
  cursor : t.cursor = s.cursor
  blockLoad : t.blockLoad = s.blockLoad
  sentinel : t.slot 0 = s.slot 0
  state : ∀ k, (t.slot k).state = (s.slot k).state ∨ (t.slot k).state = (s.slot k).state ||| playingMask

/-- Some records have the playing bit cleared, by `stop` or `stopAll` (R91, R92). -/
structure Stops (s t : State) : Prop where
  cursor : t.cursor = s.cursor
  blockLoad : t.blockLoad = s.blockLoad
  slot : ∀ k, t.slot k = s.slot k ∨ t.slot k = (s.slot k).clearPlaying

/-- One record is freed, and the cursor falls to it (R88). -/
structure Frees (index : Byte) (s t : State) : Prop where
  inRange : 1 ≤ index.toNat ∧ index.toNat ≤ 14
  cursor : t.cursor = if index.toNat < s.cursor.toNat then index else s.cursor
  blockLoad : t.blockLoad = s.blockLoad
  slot : ∀ k, t.slot k = if k = index.toNat then (s.slot k).clearState else s.slot k

/-- Every record is freed (R89). -/
structure FreesAll (s t : State) : Prop where
  cursor : t.cursor = 1
  blockLoad : t.blockLoad = s.blockLoad
  slot : ∀ k, t.slot k = if k < 15 then (s.slot k).clearState else s.slot k

/-- The first free record from the cursor on is handed out, and the cursor passes it and the occupied records behind it
(R87, R152). -/
structure Allocates (id : Nat) (s t : State) : Prop where
  cursor_le : s.cursor.toNat ≤ id
  le : id ≤ 14
  lt_cursor : id < t.cursor.toNat
  cursor_range : t.cursor.toNat ≤ 15
  occupied_below : ∀ j, s.cursor.toNat ≤ j → j < id → (s.slot j).state ≠ 0
  occupied_above : ∀ j, id < j → j < t.cursor.toNat → (s.slot j).state ≠ 0
  blockLoad : t.blockLoad = ⟨BitVec.ofNat 8 id, 1⟩
  slot : ∀ k, t.slot k = if k = id then freshSlot else s.slot k

/-- An allocation that finds no free record leaves its outcome in the block load record alone (R152). -/
structure ReportsCapacity (s t : State) : Prop where
  cursor : t.cursor = s.cursor
  blockLoad : t.blockLoad = ⟨0, 2⟩
  slot : ∀ k, t.slot k = s.slot k

/-- What a command that stops no record does. -/
inductive TableChange (s t : State) : Prop
  | keepsOccupied (h : KeepsOccupied s t)
  | frees (index : Byte) (h : Frees index s t)
  | freesAll (h : FreesAll s t)
  | allocates (id : Nat) (h : Allocates id s t)
  | reportsCapacity (h : ReportsCapacity s t)

/-! ### The shared operations -/

theorem KeepsOccupied.of_same {s t : State} (hcursor : t.cursor = s.cursor) (hload : t.blockLoad = s.blockLoad)
    (hslot : ∀ k, t.slot k = s.slot k) : KeepsOccupied s t :=
  ⟨hcursor, hload, hslot 0, fun k => .inl (congrArg Slot.state (hslot k))⟩

theorem keepsOccupied_setResponse (s : State) (r : Option Response) : KeepsOccupied s (s.setResponse r) :=
  .of_same rfl rfl fun _ => rfl

theorem keepsOccupied_updateTarget (s : State) (index : Byte) {f : Slot → Slot} (hf : KeepsOrSetsPlaying f)
    (r : Option Response) : KeepsOccupied s ((s.updateTarget index f).setResponse r) where
  cursor := s.updateTarget_cursor index f
  blockLoad := s.updateTarget_blockLoad index f
  sentinel := by
    rw [State.setResponse_slot, State.updateTarget_slot, if_neg (by omega)]
  state k := by
    rw [State.setResponse_slot, State.updateTarget_slot]
    split
    · exact hf _
    · exact .inl rfl

theorem stops_stop (c : Config) (index : Byte) (s : State) : Stops s (stop c index s) := by
  obtain ⟨hcursor, -, -, hload, -, -, -⟩ := stop_frame s c index
  refine ⟨hcursor, hload, fun k => ?_⟩
  rw [stop_slot]
  split
  · exact .inr rfl
  · exact .inl rfl

theorem stops_stopAll (c : Config) (s : State) : Stops s (stopAll c s) := by
  obtain ⟨hslot, -, hcursor, -, -, hload, -, -, -⟩ := stopAll_spec s c
  refine ⟨hcursor, hload, fun k => ?_⟩
  rw [hslot]
  split
  · exact .inr rfl
  · exact .inl rfl

theorem tableChange_free (index : Byte) (s : State) (r : Option Response) :
    TableChange s ((free index s).setResponse r) := by
  obtain ⟨-, -, -, hload, -, -, -⟩ := free_frame s index
  by_cases hr : 1 ≤ index.toNat ∧ index.toNat ≤ 14
  · refine .frees index ⟨hr, ?_, hload, fun k => ?_⟩
    · simp [free_cursor, hr]
    · simp [free_slot, hr]
  · refine .keepsOccupied (.of_same ?_ hload fun k => ?_)
    · simp [free_cursor, hr]
    · simp [free_slot, hr]

theorem freesAll_freeAll (c : Config) (s : State) (r : Option Response) :
    FreesAll s ((freeAll c s).setResponse r) := by
  obtain ⟨hslot, hcursor, -, -, -, hload, -, -, -⟩ := freeAll_spec s c
  refine ⟨?_, ?_, fun k => ?_⟩
  · rw [State.setResponse_cursor, hcursor]
  · rw [State.setResponse_blockLoad, hload]
  · rw [State.setResponse_slot, hslot]

theorem createWith_next (c : Config) (s : State) :
    ∃ t, createWith c s = .next t ∧ t.paused = s.paused ∧ TableChange s t := by
  rcases allocate_spec s c with
    ⟨-, hnone⟩ | ⟨hid, t, hsome, hslot, -, hlt, hrange, habove, hpaused, -, -, -, -, -⟩
  · exact ⟨_, createWith_of_none hnone, rfl, .reportsCapacity ⟨rfl, rfl, fun _ => rfl⟩⟩
  · obtain ⟨hge, hbelow⟩ := nextEligible_occupied_below hid
    exact ⟨_, createWith_of_some hsome, hpaused, .allocates _ ⟨hge, hid, hlt, hrange, hbelow,
      fun j hj hj' => (Slot.eligible_eq_false_iff _).mp (habove j hj hj'), rfl, hslot⟩⟩

theorem tickWith_next (c : Config) (now : Stamp) (smp0 smp1 : SampleRecord) (s : State) :
    ∃ t, tickWith c now smp0 smp1 s = .next t ∧ t.paused = s.paused ∧ KeepsOccupied s t := by
  obtain ⟨t, hnext, hslot, -, hcursor, -, hpaused, -, hload, -, -⟩ := tickWith_spec c now smp0 smp1 s
  refine ⟨t, hnext, hpaused, hcursor, hload, ?_, fun k => .inl ?_⟩
  · rw [hslot 0, if_neg (by omega)]
  · rw [hslot k]
    split
    · exact Slot.ticked_state now _
    · rfl

/-! ### All commands together -/

/-- What a command leaves in the table, the cursor and the block load record; the commands that stop records do so
first. -/
def CommandChange (i : Instr) (s t : State) : Prop :=
  TableChange s t ∨ stopsSlots i = true ∧ ∃ u, Stops s u ∧ KeepsOccupied u t

theorem exec_change (i : Instr) (s : State) : ∃ t, exec i s = .next t ∧ CommandChange i s t := by
  cases meaning i with
  | reads resp hexec => exact ⟨_, hexec s, .inl (.keepsOccupied (keepsOccupied_setResponse s _))⟩
  | updates index f hexec hstate _ =>
    exact ⟨_, hexec s, .inl (.keepsOccupied (keepsOccupied_updateTarget s index hstate _))⟩
  | stops index _ => exact ⟨_, rfl, .inr ⟨rfl, _, stops_stop _ index s, keepsOccupied_setResponse _ _⟩⟩
  | stopsAll => exact ⟨_, rfl, .inr ⟨rfl, _, stops_stopAll _ s, keepsOccupied_setResponse _ _⟩⟩
  | stopsAllThenStarts index _ now =>
    exact ⟨_, exec_effectStartSolo .., .inr ⟨rfl, _, stops_stopAll _ s,
      keepsOccupied_updateTarget _ index (fun _ => .inr rfl) _⟩⟩
  | frees index => exact ⟨_, rfl, .inl (tableChange_free index s _)⟩
  | freesAll hexec => exact ⟨_, hexec s, .inl (.freesAll (freesAll_freeAll _ s _))⟩
  | pauses => exact ⟨_, rfl, .inl (.keepsOccupied (.of_same rfl rfl fun _ => rfl))⟩
  | continues => exact ⟨_, rfl, .inl (.keepsOccupied (.of_same rfl rfl fun _ => rfl))⟩
  | setsDeviceGain => exact ⟨_, rfl, .inl (.keepsOccupied (.of_same rfl rfl fun _ => rfl))⟩
  | creates =>
    obtain ⟨t, hnext, -, hchange⟩ := createWith_next Config.implementation s
    exact ⟨t, hnext, .inl hchange⟩
  | ticks now smp0 smp1 =>
    obtain ⟨t, hnext, -, hkeeps⟩ := tickWith_next Config.implementation now smp0 smp1 s
    exact ⟨t, hnext, .inl (.keepsOccupied hkeeps)⟩

theorem commandChange_of_exec {i : Instr} {s t : State} (h : exec i s = .next t) : CommandChange i s t := by
  obtain ⟨t', hnext, hchange⟩ := exec_change i s
  rw [h] at hnext
  cases hnext
  exact hchange

/-! ## The state after reset -/

/-- Settles O12: R43's values, field by field. -/
theorem resetValues : Obligations.ResetValues :=
  ⟨State.reset_slot, rfl, rfl, rfl, rfl, rfl, rfl, rfl⟩

theorem inv_reset : Inv State.reset where
  cursorInRange := ⟨by decide, by decide⟩
  sentinelClear := State.reset_slot 0
  stateBitsLegal i := by
    rw [State.reset_slot]
    decide
  blockLoadLegal := .inl ⟨rfl, rfl⟩

/-- With the cursor at 1 no slot is below it. -/
theorem cursorSound_of_cursor_one {s : State} (h : s.cursor = 1) : CursorSound s := by
  intro i hi hlt
  have hone : (1 : Byte).toNat = 1 := rfl
  rw [h] at hlt
  omega

theorem cursorSound_reset : CursorSound State.reset := cursorSound_of_cursor_one rfl

/-- Settles O54: at reset the table is zero and the cursor at 1, so no slot is below it. -/
theorem resetSatisfiesTheInvariants : Obligations.ResetSatisfiesTheInvariants := by
  refine ⟨inv_reset, cursorSound_reset, fun i _ _ => ?_⟩
  rw [State.reset_slot]
  decide

/-! ## The invariant of every step -/

/-- The invariant speaks of the table, the cursor and the block load record alone. -/
theorem Inv.of_same {s t : State} (h : Inv s) (hcursor : t.cursor = s.cursor) (hload : t.blockLoad = s.blockLoad)
    (hslot : ∀ k, t.slot k = s.slot k) : Inv t where
  cursorInRange := by simpa only [CursorInRange, hcursor] using h.cursorInRange
  sentinelClear := (hslot 0).trans h.sentinelClear
  stateBitsLegal k := by simpa only [hslot] using h.stateBitsLegal k
  blockLoadLegal := by simpa only [BlockLoadLegal, hload] using h.blockLoadLegal

theorem Inv.setPending {s : State} (h : Inv s) (p : List Request) : Inv (s.setPending p) :=
  h.of_same rfl rfl fun _ => rfl

section
variable {s t : State} (hinv : Inv s)
include hinv

theorem KeepsOccupied.inv (h : KeepsOccupied s t) : Inv t where
  cursorInRange := by simpa only [CursorInRange, h.cursor] using hinv.cursorInRange
  sentinelClear := h.sentinel.trans hinv.sentinelClear
  stateBitsLegal k := by
    rcases h.state k with hk | hk
    · simpa only [hk] using hinv.stateBitsLegal k
    · simpa only [hk] using (setPlaying_legal (hinv.stateBitsLegal k)).1
  blockLoadLegal := by simpa only [BlockLoadLegal, h.blockLoad] using hinv.blockLoadLegal

/-- `stopAll` runs on the sentinel too (R92), whose playing bit is clear already. -/
theorem Stops.inv (h : Stops s t) : Inv t where
  cursorInRange := by simpa only [CursorInRange, h.cursor] using hinv.cursorInRange
  sentinelClear := by
    rcases h.slot 0 with hk | hk
    · exact hk.trans hinv.sentinelClear
    · rw [SentinelClear, hk, hinv.sentinelClear]
      rfl
  stateBitsLegal k := by
    rcases h.slot k with hk | hk
    · simpa only [hk] using hinv.stateBitsLegal k
    · rw [hk]
      exact clearPlaying_legal (hinv.stateBitsLegal k)
  blockLoadLegal := by simpa only [BlockLoadLegal, h.blockLoad] using hinv.blockLoadLegal

theorem Frees.inv {index : Byte} (h : Frees index s t) : Inv t where
  cursorInRange := by
    obtain ⟨hlow, hhigh⟩ := h.inRange
    rw [CursorInRange, h.cursor]
    split
    · exact ⟨hlow, by simp only [Config.slotCount]; omega⟩
    · exact hinv.cursorInRange
  sentinelClear := by
    obtain ⟨hlow, -⟩ := h.inRange
    rw [SentinelClear, h.slot, if_neg (by omega)]
    exact hinv.sentinelClear
  stateBitsLegal k := by
    rw [h.slot]
    split
    · simp
    · exact hinv.stateBitsLegal k
  blockLoadLegal := by simpa only [BlockLoadLegal, h.blockLoad] using hinv.blockLoadLegal

theorem FreesAll.inv (h : FreesAll s t) : Inv t where
  cursorInRange := by
    rw [CursorInRange, h.cursor]
    decide
  sentinelClear := by
    rw [SentinelClear, h.slot, hinv.sentinelClear]
    rfl
  stateBitsLegal k := by
    rw [h.slot]
    split
    · simp
    · exact hinv.stateBitsLegal k
  blockLoadLegal := by simpa only [BlockLoadLegal, h.blockLoad] using hinv.blockLoadLegal

/-- The cursor is at least 1, so an allocation never hands out the sentinel. -/
theorem Allocates.inv {id : Nat} (h : Allocates id s t) : Inv t := by
  have hid : 1 ≤ id := hinv.cursorInRange.1.trans h.cursor_le
  have hle : id ≤ 14 := h.le
  refine ⟨⟨by have := h.lt_cursor; omega, h.cursor_range⟩, ?_, fun k => ?_, .inr (.inr ?_)⟩
  · rw [SentinelClear, h.slot, if_neg (by omega)]
    exact hinv.sentinelClear
  · rw [h.slot]
    split
    · decide
    · exact hinv.stateBitsLegal k
  · rw [h.blockLoad]
    simp only [BitVec.toNat_ofNat, Config.slotCount, true_and]
    omega

theorem ReportsCapacity.inv (h : ReportsCapacity s t) : Inv t where
  cursorInRange := by simpa only [CursorInRange, h.cursor] using hinv.cursorInRange
  sentinelClear := (h.slot 0).trans hinv.sentinelClear
  stateBitsLegal k := by simpa only [h.slot] using hinv.stateBitsLegal k
  blockLoadLegal := .inr (.inl ⟨by rw [h.blockLoad], by rw [h.blockLoad]⟩)

theorem TableChange.inv (h : TableChange s t) : Inv t := by
  cases h with
  | keepsOccupied h => exact h.inv hinv
  | frees index h => exact h.inv hinv
  | freesAll h => exact h.inv hinv
  | allocates id h => exact h.inv hinv
  | reportsCapacity h => exact h.inv hinv

theorem CommandChange.inv {i : Instr} (h : CommandChange i s t) : Inv t := by
  rcases h with h | ⟨-, u, hstops, hkeeps⟩
  · exact h.inv hinv
  · exact hkeeps.inv (hstops.inv hinv)

end

/-- Settles O55: a reset event gives the state after reset, and every command's change of the table, the cursor and the
block load record keeps the invariant. -/
theorem stepKeepsTheInvariant : Obligations.StepKeepsTheInvariant := by
  intro s t hinv hstep
  rcases step_cases hstep with ⟨p, rfl⟩ | ⟨p, r, rfl⟩ | ⟨r, rest, i, -, -, -, hexec⟩
  · exact inv_reset.setPending p
  · exact hinv.of_same rfl rfl fun _ => rfl
  · exact (commandChange_of_exec hexec).inv (hinv.setPending rest)

/-! ## The cursor invariant of R42 -/

theorem CursorSound.setPending {s : State} (h : CursorSound s) (p : List Request) : CursorSound (s.setPending p) := h

section
variable {s t : State} (hinv : Inv s) (hsound : CursorSound s)
include hinv hsound

theorem KeepsOccupied.cursorSound (h : KeepsOccupied s t) : CursorSound t := by
  intro k hk hlt
  rw [h.cursor] at hlt
  rcases h.state k with hstate | hstate
  · rw [hstate]
    exact hsound k hk hlt
  · rw [hstate]
    exact (setPlaying_legal (hinv.stateBitsLegal k)).2

/-- R42: a stop keeps occupied every record below the cursor that it leaves alone or that is not stranded. -/
theorem Stops.cursorSound (h : Stops s t)
    (hstranded : ∀ k, 1 ≤ k → k < s.cursor.toNat → t.slot k = s.slot k ∨ (s.slot k).state ≠ 0b10) :
    CursorSound t := by
  intro k hk hlt
  rw [h.cursor] at hlt
  have hkept : t.slot k = s.slot k → (t.slot k).state ≠ 0 := fun e => by
    rw [e]
    exact hsound k hk hlt
  rcases hstranded k hk hlt with he | hne
  · exact hkept he
  · rcases h.slot k with he | hcleared
    · exact hkept he
    · rw [hcleared]
      exact clearPlaying_ne_zero (hinv.stateBitsLegal k) (hsound k hk hlt) hne

omit hinv in
/-- An allocation fills the first free record from the cursor on, and the new cursor passes occupied records only. -/
theorem Allocates.cursorSound {id : Nat} (h : Allocates id s t) : CursorSound t := by
  intro k hk hlt
  rw [h.slot]
  split
  · decide
  · next hne =>
    rcases Nat.lt_or_gt_of_ne hne with hbelow | habove
    · rcases Nat.lt_or_ge k s.cursor.toNat with hold | hnew
      · exact hsound k hk hold
      · exact h.occupied_below k hnew hbelow
    · exact h.occupied_above k habove hlt

theorem TableChange.cursorSound (h : TableChange s t) : CursorSound t := by
  cases h with
  | keepsOccupied h => exact h.cursorSound hinv hsound
  | frees index h =>
    intro k hk hlt
    have hcursor : k < s.cursor.toNat ∧ k ≠ index.toNat := by
      rw [h.cursor] at hlt
      split at hlt <;> omega
    rw [h.slot, if_neg hcursor.2]
    exact hsound k hk hcursor.1
  | freesAll h => exact cursorSound_of_cursor_one h.cursor
  | allocates id h => exact h.cursorSound hsound
  | reportsCapacity h =>
    intro k hk hlt
    rw [h.slot]
    exact hsound k hk (h.cursor ▸ hlt)

/-- R42: the commands that stop no slot keep it always, the others where none below the cursor is stranded. -/
theorem CommandChange.cursorSound {i : Instr} (h : CommandChange i s t)
    (hstops : stopsSlots i = true → NoneStranded s) : CursorSound t := by
  rcases h with h | ⟨hi, u, hu, hkeeps⟩
  · exact h.cursorSound hinv hsound
  · have hsound_u : CursorSound u := hu.cursorSound hinv hsound fun k hk hlt => .inr (hstops hi k hk hlt)
    exact hkeeps.cursorSound (hu.inv hinv) hsound_u

/-- The same for a step: only a command it runs that stops slots needs the premise. -/
theorem step_cursorSound (hstep : step s = .next t)
    (hstops : ∀ r rest i, s.resetInput = .released → acceptNext s.pending = some (r, rest) → decode r = .ok i →
      stopsSlots i = true → NoneStranded s) : CursorSound t := by
  rcases step_cases hstep with ⟨p, rfl⟩ | ⟨p, r, rfl⟩ | ⟨r, rest, i, hreset, haccept, hdecode, hexec⟩
  · exact cursorSound_reset.setPending p
  · exact hsound
  · exact (commandChange_of_exec hexec).cursorSound (hinv.setPending rest) (hsound.setPending rest)
      (hstops r rest i hreset haccept hdecode)

/-- EFFECT_STOP keeps it unless the slot it stops is itself stranded below the cursor. -/
theorem stop_cursorSound (c : Config) (index : Byte)
    (hstranded : ¬ (1 ≤ index.toNat ∧ index.toNat < s.cursor.toNat ∧ (s.slot index.toNat).state = 0b10)) :
    CursorSound (stop c index s) := by
  refine (stops_stop c index s).cursorSound hinv hsound fun k hk hlt => ?_
  by_cases he : k = index.toNat
  · subst he
    exact .inr fun hstate => hstranded ⟨hk, hlt, hstate⟩
  · rw [stop_slot, if_neg fun hc => he hc.2]
    exact .inl rfl

end

/-- Settles O56: clauses 1 and 2 by the cases of a step, 3 by the change a command makes, 4 by the one slot that
EFFECT_STOP touches. -/
theorem stepKeepsTheCursorSound : Obligations.StepKeepsTheCursorSound := by
  refine ⟨?_, ?_, ?_, ?_⟩
  · intro s t hinv hsound hnone hstep
    exact step_cursorSound hinv hsound hstep fun _ _ _ _ _ _ _ => hnone
  · intro s t hinv hsound hnostop hstep
    refine step_cursorSound hinv hsound hstep fun r rest i hreset haccept hdecode hstops => ?_
    exact absurd hstops (by simp [hnostop r rest i hreset haccept hdecode])
  · intro i s t hinv hsound hnostop hexec
    exact (commandChange_of_exec hexec).cursorSound hinv hsound fun hstops => absurd hstops (by simp [hnostop])
  · intro index loopCount s t hinv hsound hstranded hexec
    cases hexec
    exact stop_cursorSound hinv hsound Config.implementation index hstranded

/-- Settles O57: `0b10 AND 0b01` is 0, and a stop leaves the cursor above the slot. -/
theorem stoppingAStrandedSlotBreaksTheCursor : Obligations.StoppingAStrandedSlotBreaksTheCursor := by
  intro s index loopCount hlow hhigh hcursor hstate
  have hfreed : ((stop Config.implementation index s).slot index.toNat).state = 0 := by
    rw [stop_slot, if_pos ⟨⟨hlow, hhigh⟩, rfl⟩, Slot.clearPlaying_state, hstate]
    decide
  have hkept : (stop Config.implementation index s).cursor = s.cursor :=
    (stops_stop Config.implementation index s).cursor
  exact ⟨_, rfl, hfreed, fun hsound => hsound index.toNat hlow (hkept ▸ hcursor) hfreed⟩

/-- Settles O33: with no free slot below the cursor, the lowest free one is where the scan stops. -/
theorem createReturnsTheLowestFreeIndex : Obligations.CreateReturnsTheLowestFreeIndex := by
  intro s id hrange hsound hlow hhigh hfree hocc
  have hcursor : s.cursor.toNat ≤ id := by
    by_contra hlt
    exact hsound id hlow (by omega) hfree
  have hid : nextEligible s s.cursor.toNat = id :=
    nextEligible_eq hcursor hhigh hfree fun j hj hj' => hocc j (hrange.1.trans hj) hj'
  rcases allocate_spec s Config.implementation with ⟨hfull, -⟩ | ⟨-, t, hsome, -⟩
  · omega
  · rw [hid] at hsome
    exact ⟨_, createWith_of_some hsome, rfl⟩

/-! ## The pause flag -/

/-- Settles O58: no shape of meaning but those of DC_PAUSE and DC_CONTINUE writes it. -/
theorem onlyPauseCommandsWriteThePauseFlag : Obligations.OnlyPauseCommandsWriteThePauseFlag := by
  intro i s hpause hcontinue
  cases meaning i with
  | reads resp hexec => exact ⟨_, hexec s, rfl⟩
  | updates index f hexec _ _ => exact ⟨_, hexec s, s.updateTarget_paused index f⟩
  | stops index _ =>
    obtain ⟨-, hpaused, -⟩ := stop_frame s Config.implementation index
    exact ⟨_, rfl, hpaused⟩
  | stopsAll =>
    obtain ⟨-, -, -, hpaused, -⟩ := stopAll_spec s Config.implementation
    exact ⟨_, rfl, (State.setResponse_paused _ _).trans hpaused⟩
  | stopsAllThenStarts index _ now =>
    obtain ⟨-, -, -, hpaused, -⟩ := stopAll_spec s Config.implementation
    exact ⟨_, exec_effectStartSolo .., (State.updateTarget_paused _ index (Slot.started now)).trans hpaused⟩
  | frees index =>
    obtain ⟨-, hpaused, -⟩ := free_frame s index
    exact ⟨_, rfl, hpaused⟩
  | freesAll hexec =>
    obtain ⟨-, -, -, hpaused, -⟩ := freeAll_spec s Config.implementation
    exact ⟨_, hexec s, (State.setResponse_paused _ _).trans hpaused⟩
  | pauses => exact absurd rfl hpause
  | continues => exact absurd rfl hcontinue
  | setsDeviceGain => exact ⟨_, rfl, rfl⟩
  | creates =>
    obtain ⟨t, hnext, hpaused, -⟩ := createWith_next Config.implementation s
    exact ⟨t, hnext, hpaused⟩
  | ticks now smp0 smp1 =>
    obtain ⟨t, hnext, hpaused, -⟩ := tickWith_next Config.implementation now smp0 smp1 s
    exact ⟨t, hnext, hpaused⟩

end Sys2Proof.Machine
end

section
/-! PROOFS. Nothing reads the device gain (spec/10_state.md R33) or the three direction fields (R23): the erasure passes
through every operation, so a step of the erased state gives the same response and the same state up to the erasure. -/

namespace Sys2Proof.Machine

/-! ## The shared operations -/

section
variable (u : Unread) (c : Config) (s : State)

/-- A change of one record, where what it writes may hold the unread fields. -/
theorem updateTarget_without {f : Slot → Slot} (hf : IgnoresUnread f) (index : Byte) :
    ((s.without u).updateTarget index f).without u = (s.updateTarget index f).without u := by
  unfold State.updateTarget
  split
  · rw [← State.without_setSlot, ← State.without_setSlot, State.without_without, State.without_slot, hf]
  · exact State.without_without s u

/-- A loop over the table whose body passes the erasure on passes it on. -/
theorem forEachSlot_without {body : State → Nat → State}
    (hbody : ∀ t i, body (t.without u) i = (body t i).without u) :
    (s.without u).forEachSlot body = (s.forEachSlot body).without u :=
  List.foldl_hom (fun t : State => t.without u) hbody

theorem stopBody_without (i : Nat) : stopBody c (s.without u) i = (stopBody c s i).without u := by
  simp [stopBody]

theorem stop_without (index : Byte) : stop c index (s.without u) = (stop c index s).without u := by
  unfold stop
  split
  · exact stopBody_without u c s index.toNat
  · rfl

theorem stopAll_without : stopAll c (s.without u) = (stopAll c s).without u :=
  forEachSlot_without u s fun t i => stopBody_without u c t i

theorem free_without (index : Byte) : free index (s.without u) = (free index s).without u := by
  have htarget : (s.without u).updateTarget index Slot.clearState
      = (s.updateTarget index Slot.clearState).without u := by
    unfold State.updateTarget
    split <;> simp
  unfold free
  simp only [htarget, State.without_cursor, State.without_setCursor]
  split
  · split <;> rfl
  · rfl

theorem freeAll_without : freeAll c (s.without u) = (freeAll c s).without u := by
  have hbody : ∀ (t : State) (i : Nat), (t.without u).setSlot i ((t.without u).slot i).clearState
      = (t.setSlot i (t.slot i).clearState).without u := by simp
  unfold freeAll
  rw [forEachSlot_without u s hbody, State.without_setCursor, State.without_setPool]

/-! ## The allocator -/

theorem scanOccupied_without (fuel a : Nat) : scanOccupied (s.without u) fuel a = scanOccupied s fuel a := by
  induction fuel generalizing a with
  | zero => rfl
  | succ fuel ih => simp only [scanOccupied, State.without_slot, Slot.without_eligible, ih]

@[simp] theorem nextEligible_without (a : Nat) : nextEligible (s.without u) a = nextEligible s a :=
  scanOccupied_without u s _ a

theorem allocate_without :
    allocate c (s.without u) = (allocate c s).map fun p => (p.1, p.2.without u) := by
  have hset : ∀ i, (s.without u).setSlot i freshSlot = (s.setSlot i freshSlot).without u := fun i => by
    rw [← State.without_setSlot, freshSlot_without]
  unfold allocate
  simp only [State.without_cursor, State.without_pool, nextEligible_without, hset, State.without_setPool,
    State.without_setCursor]
  split <;> rfl

/-! ## The tick -/

/-- What a tick holds while it walks the table, without an unread field. -/
def TickWork.without (w : TickWork) (u : Unread) : TickWork := { w with state := w.state.without u }

theorem tickSlot_of_visited (now : Stamp) (smp0 smp1 : SampleRecord) (w : TickWork) (i : Nat)
    (h : (w.state.slot i).visited = true) :
    tickSlot c now smp0 smp1 w i
      = { state := w.state.setSlot i ((w.state.slot i).ticked now)
          acc0 := w.acc0 + contribution c (w.state.slot i) .axis0 smp0
          acc1 := w.acc1 + contribution c (w.state.slot i) .axis1 smp1 } := by
  simp only [tickSlot, Slot.ticked, if_pos h]

theorem tickSlot_of_not_visited (now : Stamp) (smp0 smp1 : SampleRecord) (w : TickWork) (i : Nat)
    (h : ¬ (w.state.slot i).visited = true) : tickSlot c now smp0 smp1 w i = w := by
  simp only [tickSlot, if_neg h]

theorem tickSlot_without (now : Stamp) (smp0 smp1 : SampleRecord) (w : TickWork) (i : Nat) :
    tickSlot c now smp0 smp1 (w.without u) i = (tickSlot c now smp0 smp1 w i).without u := by
  have hvisited : ((w.without u).state.slot i).visited = (w.state.slot i).visited := by simp [TickWork.without]
  by_cases h : (w.state.slot i).visited = true
  · rw [tickSlot_of_visited c now smp0 smp1 w i h, tickSlot_of_visited c now smp0 smp1 _ i (hvisited.trans h)]
    simp [TickWork.without]
  · rw [tickSlot_of_not_visited c now smp0 smp1 w i h, tickSlot_of_not_visited c now smp0 smp1 _ i (hvisited ▸ h)]

theorem tickWalk_without (now : Stamp) (smp0 smp1 : SampleRecord) :
    tickWalk c now smp0 smp1 (s.without u) = (tickWalk c now smp0 smp1 s).without u := by
  unfold tickWalk
  rw [State.without_paused]
  split
  · rfl
  · exact List.foldl_hom (init := ⟨s, 0, 0⟩) (TickWork.without · u) (tickSlot_without u c now smp0 smp1)

end

/-! ## Commands and steps -/

section
variable (u : Unread)

/-- Two outcomes have the same response and the same next state, up to an unread field. -/
def AgreeUpTo (u : Unread) (r r' : Result) : Prop := mapNext (·.without u) r = mapNext (·.without u) r'

variable {u}

theorem AgreeUpTo.of_answer {s t : State} (r : Response) (h : s.without u = t.without u) :
    AgreeUpTo u (answer r s) (answer r t) := by
  simp only [AgreeUpTo, answer, mapNext, ← State.without_setResponse, h]

theorem AgreeUpTo.of_answer_without (r : Response) (s : State) : AgreeUpTo u (answer r (s.without u)) (answer r s) :=
  .of_answer r (s.without_without u)

variable (u)

theorem createWith_without (c : Config) (s : State) : AgreeUpTo u (createWith c (s.without u)) (createWith c s) := by
  have hallocate := allocate_without u c s
  rcases hs : allocate c s with _ | ⟨id, t⟩
  · rw [hs] at hallocate
    rw [createWith_of_none hallocate, createWith_of_none hs, State.without_pool, State.without_setBlockLoad]
    exact .of_answer_without _ _
  · rw [hs] at hallocate
    rw [createWith_of_some hallocate, createWith_of_some hs, State.without_pool, State.without_setBlockLoad]
    exact .of_answer_without _ _

theorem tickWith_without (c : Config) (now : Stamp) (smp0 smp1 : SampleRecord) (s : State) :
    AgreeUpTo u (tickWith c now smp0 smp1 (s.without u)) (tickWith c now smp0 smp1 s) := by
  simp only [tickWith, tickWalk_without]
  exact .of_answer_without _ _

/-- No command reads an unread field. -/
theorem exec_without (i : Instr) (s : State) : AgreeUpTo u (exec i (s.without u)) (exec i s) := by
  cases meaning i with
  | reads resp hexec =>
    rw [hexec, hexec, State.without_blockLoad, State.without_pool]
    exact .of_answer_without _ s
  | updates index f hexec _ hunread =>
    rw [hexec, hexec]
    exact .of_answer _ (updateTarget_without u s hunread index)
  | stops index _ =>
    refine .of_answer _ ?_
    rw [stop_without, State.without_without]
  | stopsAll =>
    refine .of_answer _ ?_
    rw [stopAll_without, State.without_without]
  | stopsAllThenStarts index _ now =>
    rw [exec_effectStartSolo, exec_effectStartSolo, stopAll_without]
    exact .of_answer _ (updateTarget_without u _ (started_ignoresUnread now) index)
  | frees index =>
    refine .of_answer _ ?_
    rw [free_without, State.without_without]
  | freesAll hexec =>
    rw [hexec, hexec, freeAll_without]
    exact .of_answer_without _ _
  | pauses =>
    refine .of_answer _ ?_
    rw [State.without_setPaused, State.without_without]
  | continues =>
    refine .of_answer _ ?_
    rw [State.without_setPaused, State.without_without]
  | setsDeviceGain gain => exact .of_answer _ (s.without_setDeviceGain u gain)
  | creates => exact createWith_without u _ s
  | ticks now smp0 smp1 => exact tickWith_without u _ now smp0 smp1 s

theorem transact_without (s : State) : AgreeUpTo u (transact (s.without u)) (transact s) := by
  unfold transact
  rw [State.without_pending]
  split
  · simp only [AgreeUpTo, idle, mapNext, State.without_setResponse, State.without_without]
  · rw [State.without_setPending]
    split
    · exact exec_without u _ _
    · exact .of_answer_without _ _

/-- A reset event reads the pending requests alone. -/
theorem takeReset_without (s : State) (inProgress : Bool) :
    takeReset (s.without u) inProgress = takeReset s inProgress := by
  simp only [takeReset, State.without_pending]

/-- No step reads an unread field. -/
theorem step_without (s : State) : AgreeUpTo u (step (s.without u)) (step s) := by
  unfold step
  rw [State.without_resetInput]
  split
  · exact transact_without u s
  · rw [takeReset_without]
    rfl
  · rw [takeReset_without]
    rfl

end

/-- Settles O59: both states are the same without their device gain, and a step of either agrees with a step of that. -/
theorem deviceGainInfluencesNothing : Obligations.DeviceGainInfluencesNothing := by
  intro s gain
  exact (step_without .deviceGain (s.setDeviceGain gain)).symm.trans (step_without .deviceGain s)

/-- Settles O60: `step_without` at the erasure of the three direction fields. -/
theorem directionFieldsInfluenceNothing : Obligations.DirectionFieldsInfluenceNothing :=
  step_without .directions

end Sys2Proof.Machine
end

section
/-! PROOFS. Which of the pending requests a step serves (spec/20_memory.md R54, spec/60_exceptions.md R163). -/

namespace Sys2Proof.Machine

theorem isTick_iff (r : Request) : isTick r = true ↔ r.kind = 4 := beq_iff_eq

theorem isTick_eq_false_iff (r : Request) : isTick r = false ↔ r.kind ≠ 4 := beq_eq_false_iff_ne

/-- R54, R163: a host request is accepted before the ticks that are pending in front of it. -/
theorem acceptNext_host {ticks : List Request} {r : Request} (rest : List Request)
    (hticks : ∀ q ∈ ticks, isTick q = true) (hr : isTick r = false) :
    acceptNext (ticks ++ r :: rest) = some (r, ticks ++ rest) := by
  unfold acceptNext
  rw [takeHostRequest_append ticks hticks r rest hr]

/-- Of ticks alone the first is accepted. -/
theorem acceptNext_ticks {r : Request} {rest : List Request} (hticks : ∀ q ∈ r :: rest, isTick q = true) :
    acceptNext (r :: rest) = some (r, rest) := by
  unfold acceptNext
  rw [takeHostRequest_ticks _ hticks]

/-- Settles O10: each clause says which request is accepted, and the step runs the command of that one. -/
theorem hostRequestsBeforeTicks : Obligations.HostRequestsBeforeTicks := by
  refine ⟨?_, ?_⟩
  · intro s ticks rest r i hreset hpending hticks hhost hdecode
    have haccept : acceptNext s.pending = some (r, ticks ++ rest) := by
      rw [hpending]
      exact acceptNext_host rest (fun q hq => (isTick_iff q).mpr (hticks q hq)) ((isTick_eq_false_iff r).mpr hhost)
    exact stepRunsTheDecodedCommand s r _ i hreset haccept hdecode
  · intro s rest r i hreset hpending hticks hdecode
    have haccept : acceptNext s.pending = some (r, rest) := by
      rw [hpending]
      exact acceptNext_ticks fun q hq => (isTick_iff q).mpr (hticks q hq)
    exact stepRunsTheDecodedCommand s r rest i hreset haccept hdecode

end Sys2Proof.Machine
end

section
/-! PROOFS. Plain overwrites (spec/20_memory.md R53): the operations that, run again on the state they left and answered,
change nothing. -/

namespace Sys2Proof.Machine

/-- `op` leaves the state it made as it is, whatever the response port then holds. -/
def Overwrites (op : State → State) : Prop := ∀ s r, op ((op s).setResponse r) = (op s).setResponse r

/-- A command that answers an overwrite with an empty response leaves the same state run twice as once. -/
theorem exec_twice_of_overwrites {op : State → State} {i : Instr} (hexec : ∀ s, exec i s = answer .empty (op s))
    (hop : Overwrites op) (s : State) : ∃ t, exec i s = .next t ∧ exec i t = .next t := by
  refine ⟨(op s).setResponse (some .empty), hexec s, ?_⟩
  rw [hexec, hop]
  rfl

/-- R96, R97, R99 to R101: a change of the addressed record that writes the same fields again. -/
theorem overwrites_updateTarget (index : Byte) {f : Slot → Slot} (hf : ∀ r, f (f r) = f r) :
    Overwrites (·.updateTarget index f) := by
  intro s r
  obtain ⟨hcursor, hpool, hpaused, hgain, hload, hpending, hreset, hresponse⟩ :=
    ((s.updateTarget index f).setResponse r).updateTarget_frame index f
  refine State.ext_slots (fun k => ?_) hcursor hpool hpaused hgain hload hpending hreset hresponse
  simp only [State.updateTarget_slot, State.setResponse_slot]
  split
  · exact hf _
  · rfl

/-- R88: the freed record is free already, and the cursor is at or below it. -/
theorem overwrites_free (index : Byte) : Overwrites (free index) := by
  intro s r
  obtain ⟨hpool, hpaused, hgain, hload, hpending, hreset, hresponse⟩ := free_frame ((free index s).setResponse r) index
  refine State.ext_slots (fun k => ?_) ?_ hpool hpaused hgain hload hpending hreset hresponse
  · simp only [free_slot, State.setResponse_slot]
    split <;> rfl
  · simp only [free_cursor, State.setResponse_cursor]
    by_cases hlower : (1 ≤ index.toNat ∧ index.toNat ≤ 14) ∧ index.toNat < s.cursor.toNat
    · rw [if_pos hlower, ite_self]
    · rw [if_neg hlower, if_neg hlower]

/-- R89: every record is free already, and the cursor and the pool are written with fixed values. -/
theorem overwrites_freeAll (c : Config) : Overwrites (freeAll c) := by
  intro s r
  obtain ⟨hslot, hcursor, hpool, -⟩ := freeAll_spec s c
  obtain ⟨hslot', hcursor', hpool', hpaused, hgain, hload, hpending, hreset, hresponse⟩ :=
    freeAll_spec ((freeAll c s).setResponse r) c
  refine State.ext_slots (fun k => ?_) (hcursor'.trans hcursor.symm) (hpool'.trans hpool.symm) hpaused hgain hload
    hpending hreset hresponse
  rw [hslot', State.setResponse_slot, hslot]
  split <;> rfl

theorem overwrites_setPaused (v : Bool) : Overwrites (·.setPaused v) := fun _ _ => rfl

theorem overwrites_setDeviceGain (gain : Byte) : Overwrites (·.setDeviceGain gain) := fun _ _ => rfl

/-- Settles O21: each of R53's commands is answered after an overwrite of one record, of the table or of one register. -/
theorem plainOverwritesAreIdempotent : Obligations.PlainOverwritesAreIdempotent := by
  intro i s hplain
  cases i with
  | setEffect index | setEnvelope index | setPeriodic index | setConstant index | setRamp index =>
    exact exec_twice_of_overwrites (fun _ => rfl) (overwrites_updateTarget index fun _ => by rfl) s
  | blockFree index => exact exec_twice_of_overwrites (fun _ => rfl) (overwrites_free index) s
  | blockFreeAll | dcFreeAll => exact exec_twice_of_overwrites (fun _ => rfl) (overwrites_freeAll _) s
  | dcPause | dcContinue => exact exec_twice_of_overwrites (fun _ => rfl) (overwrites_setPaused _) s
  | deviceGain gain => exact exec_twice_of_overwrites (fun _ => rfl) (overwrites_setDeviceGain gain) s
  | _ => exact absurd hplain Bool.false_ne_true

end Sys2Proof.Machine
end

section
/-! PROOFS. The command that each tag of a report selects, with its operands at their offsets (spec/30_encoding.md R66
to R77, R80). -/

namespace Sys2Proof

/-! ## The command of each tag -/

section
variable {b : Vector Byte 16} {now : Stamp}

theorem decodeReport_setEffect (h : b[0] = 1) :
    decodeReport b now = .setEffect b[1] b[2] (le16 b[3] b[4]) b[5] b[6] b[7] b[8] := by
  simp [decodeReport, h]

theorem decodeReport_setEnvelope (h : b[0] = 2) :
    decodeReport b now
      = .setEnvelope b[1] (le16 b[2] b[3]) (le16 b[4] b[5]) (le16 b[6] b[7]) (le16 b[8] b[9]) := by
  simp [decodeReport, h]

theorem decodeReport_setCondition (h : b[0] = 3) :
    decodeReport b now
      = .setCondition b[1] b[2] (le16 b[3] b[4]) (le16 b[5] b[6]) (le16 b[7] b[8]) (le16 b[9] b[10])
          (le16 b[11] b[12]) (le16 b[13] b[14]) := by
  simp [decodeReport, h]

theorem decodeReport_setPeriodic (h : b[0] = 4) :
    decodeReport b now
      = .setPeriodic b[1] (le16 b[2] b[3]) (le16 b[4] b[5]) (le16 b[6] b[7]) (le16 b[8] b[9]) := by
  simp [decodeReport, h]

theorem decodeReport_setConstant (h : b[0] = 5) : decodeReport b now = .setConstant b[1] (le16 b[2] b[3]) := by
  simp [decodeReport, h]

theorem decodeReport_setRamp (h : b[0] = 6) :
    decodeReport b now = .setRamp b[1] (le16 b[2] b[3]) (le16 b[4] b[5]) := by
  simp [decodeReport, h]

theorem decodeReport_custom7 (h : b[0] = 7) : decodeReport b now = .custom7 := by simp [decodeReport, h]

theorem decodeReport_custom8 (h : b[0] = 8) : decodeReport b now = .custom8 := by simp [decodeReport, h]

theorem decodeReport_custom14 (h : b[0] = 14) : decodeReport b now = .custom14 := by simp [decodeReport, h]

/-- R74: the operation byte of an Effect Operation selects the command. -/
theorem decodeReport_effectOperation (h : b[0] = 10) :
    decodeReport b now
      = if b[2] = 1 then .effectStart b[1] b[3] now
        else if b[2] = 2 then .effectStartSolo b[1] b[3] now
        else if b[2] = 3 then .effectStop b[1] b[3]
        else .ignored 10 b[1] b[2] := by
  simp [decodeReport, h]

/-- R75: the index byte 255 of a Block Free selects BLOCK_FREE_ALL. -/
theorem decodeReport_blockFree (h : b[0] = 11) :
    decodeReport b now = if b[1] = freeAllIndex then .blockFreeAll else .blockFree b[1] := by
  simp [decodeReport, h]

/-- R76: the control byte of a Device Control selects the command. -/
theorem decodeReport_deviceControl (h : b[0] = 12) :
    decodeReport b now
      = if b[1] = 1 then .dcEnableActuators
        else if b[1] = 2 then .dcDisableActuators
        else if b[1] = 3 then .dcStopAll
        else if b[1] = 4 then .dcFreeAll
        else if b[1] = 5 then .dcPause
        else if b[1] = 6 then .dcContinue
        else .ignored 12 b[1] b[2] := by
  simp [decodeReport, h]

theorem decodeReport_deviceGain (h : b[0] = 13) : decodeReport b now = .deviceGain b[1] := by
  simp [decodeReport, h]

/-- R80, R117: the tags 0, 9 and 15..255 name no layout. -/
theorem decodeReport_otherTag (h : b[0] = 0 ∨ b[0] = 9 ∨ 15 ≤ b[0].toNat) :
    decodeReport b now = .ignored b[0] b[1] b[2] := by
  have hne : b[0] ≠ 1#8 ∧ b[0] ≠ 2#8 ∧ b[0] ≠ 3#8 ∧ b[0] ≠ 4#8 ∧ b[0] ≠ 5#8 ∧ b[0] ≠ 6#8 ∧ b[0] ≠ 7#8 ∧ b[0] ≠ 8#8
      ∧ b[0] ≠ 10#8 ∧ b[0] ≠ 11#8 ∧ b[0] ≠ 12#8 ∧ b[0] ≠ 13#8 ∧ b[0] ≠ 14#8 := by
    bv_omega
  simp [decodeReport, hne]

end

/-- A tag has no layout, or is one of the thirteen that R67 to R77 lay out. -/
theorem tag_cases (tag : Byte) :
    (tag = 0 ∨ tag = 9 ∨ 15 ≤ tag.toNat) ∨ tag = 1 ∨ tag = 2 ∨ tag = 3 ∨ tag = 4 ∨ tag = 5 ∨ tag = 6 ∨ tag = 7
      ∨ tag = 8 ∨ tag = 14 ∨ tag = 10 ∨ tag = 11 ∨ tag = 12 ∨ tag = 13 := by
  bv_omega

/-- R8, R66: a field is its low byte plus 256 times its high byte. -/
theorem le16_toNat (lo hi : Byte) : (le16 lo hi).toNat = lo.toNat + 256 * hi.toNat := by
  have hlo := lo.isLt
  rw [le16, BitVec.toNat_append, ← Nat.shiftLeft_add_eq_or_of_lt hlo, Nat.shiftLeft_eq]
  omega

/-! ## Reports -/

/-- Settles O1: the tag of each example selects its command, and the bytes are those of the operands. -/
theorem exampleReportsDecode : Obligations.ExampleReportsDecode := by
  refine ⟨?_, ?_, ?_, ?_, ?_, ?_, ?_, ?_, ?_, ?_, ?_, ?_⟩
  · exact (decodeReport_setEffect (by decide)).trans (by decide)
  · exact (decodeReport_setEnvelope (by decide)).trans (by decide)
  · exact (decodeReport_setCondition (by decide)).trans (by decide)
  · exact (decodeReport_setPeriodic (by decide)).trans (by decide)
  · exact (decodeReport_setConstant (by decide)).trans (by decide)
  · exact (decodeReport_setRamp (by decide)).trans (by decide)
  · exact (decodeReport_effectOperation (by decide)).trans (by decide)
  · exact (decodeReport_blockFree (by decide)).trans (by decide)
  · exact (decodeReport_blockFree (by decide)).trans (by decide)
  · exact (decodeReport_deviceControl (by decide)).trans (by decide)
  · exact (decodeReport_deviceGain (by decide)).trans (by decide)
  · exact (decodeReport_otherTag (by decide)).trans (by decide)

/-- Settles O2: each clause is the equation of its tag, with the selector byte put in where the tag has one. -/
theorem reportFieldsSitAtTheirOffsets : Obligations.ReportFieldsSitAtTheirOffsets := by
  refine ⟨le16_toNat, fun b now => ⟨decodeReport_setEffect, decodeReport_setEnvelope, decodeReport_setCondition,
    decodeReport_setPeriodic, decodeReport_setConstant, decodeReport_setRamp, fun htag => ?_, decodeReport_blockFree,
    fun htag => ?_, decodeReport_deviceGain⟩⟩
  · rw [decodeReport_effectOperation htag]
    refine ⟨fun hop => ?_, fun hop => ?_, fun hop => ?_⟩ <;> simp [hop]
  · rw [decodeReport_deviceControl htag]
    refine ⟨fun hctl => ?_, fun hctl => ?_, fun hctl => ?_, fun hctl => ?_⟩ <;> simp [hctl]

/-- R80, R117: an Effect Operation with an operation byte of 0 or 4..255 is admitted by no row but the last. -/
theorem selectsNoRow_effectOperation {byte1 byte2 : Byte} (h1 : byte2 ≠ 1) (h2 : byte2 ≠ 2) (h3 : byte2 ≠ 3) :
    selectsNoRow 10 byte1 byte2 = true := by
  have : byte2 = 0 ∨ 4 ≤ byte2.toNat := by bv_omega
  simpa [selectsNoRow] using this

/-- R80, R117: a Device Control with a control byte of 0 or 7..255 is admitted by no row but the last. -/
theorem selectsNoRow_deviceControl {byte1 byte2 : Byte} (h1 : byte1 ≠ 1) (h2 : byte1 ≠ 2) (h3 : byte1 ≠ 3)
    (h4 : byte1 ≠ 4) (h5 : byte1 ≠ 5) (h6 : byte1 ≠ 6) : selectsNoRow 12 byte1 byte2 = true := by
  have : byte1 = 0 ∨ 7 ≤ byte1.toNat := by bv_omega
  simpa [selectsNoRow] using this

/-- R80, R117: so is a report of a tag that has no layout. -/
theorem selectsNoRow_otherTag {tag : Byte} (byte1 byte2 : Byte) (h : tag = 0 ∨ tag = 9 ∨ 15 ≤ tag.toNat) :
    selectsNoRow tag byte1 byte2 = true := by
  rcases h with rfl | rfl | h <;> simp [selectsNoRow, *]

/-- R80: the command of a report is one of the map's: BLOCK_FREE comes after BLOCK_FREE_ALL, and IGNORED after every
row that asks for a tag or a selector. -/
theorem decodeReport_wellFormed (b : Vector Byte 16) (now : Stamp) : (decodeReport b now).wellFormed = true := by
  rcases tag_cases b[0] with h | h | h | h | h | h | h | h | h | h | h | h | h | h
  · rw [decodeReport_otherTag h]; exact selectsNoRow_otherTag _ _ h
  · rw [decodeReport_setEffect h]; rfl
  · rw [decodeReport_setEnvelope h]; rfl
  · rw [decodeReport_setCondition h]; rfl
  · rw [decodeReport_setPeriodic h]; rfl
  · rw [decodeReport_setConstant h]; rfl
  · rw [decodeReport_setRamp h]; rfl
  · rw [decodeReport_custom7 h]; rfl
  · rw [decodeReport_custom8 h]; rfl
  · rw [decodeReport_custom14 h]; rfl
  · rw [decodeReport_effectOperation h]
    split_ifs with h1 h2 h3
    case neg => exact selectsNoRow_effectOperation h1 h2 h3
    all_goals rfl
  · rw [decodeReport_blockFree h]
    split_ifs with hindex
    · rfl
    · exact bne_iff_ne.mpr hindex
  · rw [decodeReport_deviceControl h]
    split_ifs with h1 h2 h3 h4 h5 h6
    case neg => exact selectsNoRow_deviceControl h1 h2 h3 h4 h5 h6
    all_goals rfl
  · rw [decodeReport_deviceGain h]; rfl

/-! ## Bytes that no layout names -/

theorem layoutLength_pos (tag : Byte) : 0 < layoutLength tag := by
  unfold layoutLength
  iterate 10 refine ite_pos (by decide) ?_
  decide

/-- Settles O7: with each tag, the layout's bytes fix the operands that the command is read from; where two commands
differ in what they carry, both are IGNORED, whose meaning reads nothing. -/
theorem unnamedBytesAreIgnored : Obligations.UnnamedBytesAreIgnored := by
  intro b b' now now' s hbytes hnow
  have htag : b'[0] = b[0] := (hbytes 0 (by omega) (layoutLength_pos b[0])).symm
  rcases tag_cases b[0] with h | h | h | h | h | h | h | h | h | h | h | h | h | h
  · rw [decodeReport_otherTag h, decodeReport_otherTag (htag.symm ▸ h)]
    rfl
  all_goals
    have h' := htag.trans h
    simp only [h, layoutLength] at hbytes
  · rw [decodeReport_setEffect h, decodeReport_setEffect h']
    simp [hbytes]
  · rw [decodeReport_setEnvelope h, decodeReport_setEnvelope h']
    simp [hbytes]
  · rw [decodeReport_setCondition h, decodeReport_setCondition h']
    simp [hbytes]
  · rw [decodeReport_setPeriodic h, decodeReport_setPeriodic h']
    simp [hbytes]
  · rw [decodeReport_setConstant h, decodeReport_setConstant h']
    simp [hbytes]
  · rw [decodeReport_setRamp h, decodeReport_setRamp h']
    simp [hbytes]
  · rw [decodeReport_custom7 h, decodeReport_custom7 h']
  · rw [decodeReport_custom8 h, decodeReport_custom8 h']
  · rw [decodeReport_custom14 h, decodeReport_custom14 h']
  · have hop : b[2] = b'[2] := hbytes 2 (by omega) (by decide)
    have hclock (hstart : b'[2] = 1 ∨ b'[2] = 2) : now = now' :=
      hnow.resolve_right (not_not.mpr ⟨h, hop ▸ hstart⟩)
    rw [decodeReport_effectOperation h, decodeReport_effectOperation h', hop, hbytes 1 (by omega) (by decide),
      hbytes 3 (by omega) (by decide)]
    split_ifs with h1 h2
    · rw [hclock (.inl h1)]
    · rw [hclock (.inr h2)]
    all_goals rfl
  · rw [decodeReport_blockFree h, decodeReport_blockFree h']
    simp [hbytes]
  · rw [decodeReport_deviceControl h, decodeReport_deviceControl h']
    rw [hbytes 1 (by omega) (by decide)]
    split_ifs <;> rfl
  · rw [decodeReport_deviceGain h, decodeReport_deviceGain h']
    simp [hbytes]

/-! ## The transaction kinds -/

section
variable {r : Request}

theorem decode_report (h : r.kind = 0) : decode r = .ok (decodeReport r.report r.now) := by simp [decode, h]

theorem decode_create (h : r.kind = 1) : decode r = .ok .create := by simp [decode, h]

theorem decode_getBlockLoad (h : r.kind = 2) : decode r = .ok .getBlockLoad := by simp [decode, h]

theorem decode_getPool (h : r.kind = 3) : decode r = .ok .getPool := by simp [decode, h]

theorem decode_tick (h : r.kind = 4) : decode r = .ok (.tick r.now r.samples0 r.samples1) := by simp [decode, h]

/-- R60: the kinds 5, 6 and 7 name no command. -/
theorem decode_reserved (h : 5 ≤ r.kind.toNat) : decode r = .error (.reservedKind r.kind) := by
  have hne : r.kind ≠ 0#3 ∧ r.kind ≠ 1#3 ∧ r.kind ≠ 2#3 ∧ r.kind ≠ 3#3 ∧ r.kind ≠ 4#3 := by bv_omega
  simp [decode, hne]

end

theorem kind_cases (kind : BitVec 3) :
    kind = 0 ∨ kind = 1 ∨ kind = 2 ∨ kind = 3 ∨ kind = 4 ∨ 5 ≤ kind.toNat := by
  bv_omega

/-- Settles O6: one clause per kind, and one for the reserved kinds. -/
theorem kindsSelectTransactions : Obligations.KindsSelectTransactions := fun _ =>
  ⟨decode_report, decode_create, decode_getBlockLoad, decode_getPool, decode_tick, decode_reserved⟩

/-- Settles O4: only a report's command has operands that the map bounds. -/
theorem decodedCommandsAreWellFormed : Obligations.DecodedCommandsAreWellFormed := by
  intro r i hdecode
  rcases kind_cases r.kind with h | h | h | h | h | h
  · rw [decode_report h] at hdecode
    obtain rfl := Except.ok.inj hdecode
    exact decodeReport_wellFormed r.report r.now
  · rw [decode_create h] at hdecode; cases hdecode; rfl
  · rw [decode_getBlockLoad h] at hdecode; cases hdecode; rfl
  · rw [decode_getPool h] at hdecode; cases hdecode; rfl
  · rw [decode_tick h] at hdecode; cases hdecode; rfl
  · rw [decode_reserved h] at hdecode; cases hdecode

end Sys2Proof
end

section
/-! PROOFS. The opcode table (spec/30_encoding.md R80, R85): what a row asks of a report's first three bytes, and the
decoder as the walk of the table. -/

namespace Sys2Proof

/-! ## The rows -/

/-- The mask byte of a row at a byte that it asks a value of, or at one that it leaves open (R85). -/
def maskByte : Option Byte → Byte
  | some _ => 255
  | none => 0

/-- The bytes of a row's mask or match that asks nothing beyond the third byte. -/
def firstBytes (byte0 byte1 byte2 : Byte) : Vector Byte 16 :=
  #v[byte0, byte1, byte2, 0, 0, 0, 0, 0, 0, 0, 0, 0, 0, 0, 0, 0]

/-- A row of the table asks these values of the first three bytes of a report, where there are any, and nothing else. -/
abbrev OpcodeRow.Asks (row : OpcodeRow) (tag byte1 byte2 : Option Byte) : Prop :=
  bytesOfHex row.mask = firstBytes (maskByte tag) (maskByte byte1) (maskByte byte2)
    ∧ bytesOfHex row.pattern = firstBytes (tag.getD 0) (byte1.getD 0) (byte2.getD 0)

theorem and_maskByte (x : Byte) (asked : Option Byte) :
    x &&& maskByte asked = asked.getD 0 ↔ ∀ v ∈ asked, x = v := by
  cases asked with
  | none => simp [maskByte]
  | some v =>
    have hall : x &&& 255#8 = x := BitVec.and_allOnes
    simp [maskByte, hall]

/-- R85: the masked comparison of a row with a report. -/
theorem OpcodeRow.admits_iff {row : OpcodeRow} {tag byte1 byte2 : Option Byte} (h : row.Asks tag byte1 byte2)
    (b : Vector Byte 16) :
    row.admits b = true ↔ (∀ v ∈ tag, b[0] = v) ∧ (∀ v ∈ byte1, b[1] = v) ∧ (∀ v ∈ byte2, b[2] = v) := by
  obtain ⟨hmask, hpattern⟩ := h
  simp only [← and_maskByte]
  simp [OpcodeRow.admits, hmask, hpattern, firstBytes, List.range_succ]

/-! ## The walk of the table -/

/-- The mnemonic of the first of some rows that a report matches. -/
def firstMnemonic (rows : List OpcodeRow) (b : Vector Byte 16) : Option String :=
  (rows.find? fun row => row.admits b).map OpcodeRow.mnemonic

theorem tableMnemonic_eq_firstMnemonic (b : Vector Byte 16) : tableMnemonic b = firstMnemonic opcodeTable b := rfl

section
variable {row : OpcodeRow} {rows : List OpcodeRow} {b : Vector Byte 16} {i j : Instr}

theorem firstMnemonic_of_admits (h : row.admits b = true) : firstMnemonic (row :: rows) b = some row.mnemonic := by
  simp only [firstMnemonic, List.find?_cons, h, Option.map_some]

theorem firstMnemonic_of_not_admits (h : ¬ row.admits b = true) :
    firstMnemonic (row :: rows) b = firstMnemonic rows b := by
  simp only [firstMnemonic, List.find?_cons, h]

/-- R80: the first row against the decoder's first test, the rows below it against the rest of the decoder. -/
theorem firstMnemonic_cons {P : Prop} [Decidable P] (hadmits : row.admits b = true ↔ P)
    (hname : row.mnemonic = i.mnemonic) (hrest : firstMnemonic rows b = some j.mnemonic) :
    firstMnemonic (row :: rows) b = some (if P then i else j).mnemonic := by
  by_cases hP : P
  · rw [firstMnemonic_of_admits (hadmits.mpr hP), if_pos hP, hname]
  · rw [firstMnemonic_of_not_admits (mt hadmits.mp hP), if_neg hP, hrest]

/-- A row that asks for a tag. -/
theorem firstMnemonic_tag {tag : Byte} (hasks : row.Asks (some tag) none none) (hname : row.mnemonic = i.mnemonic)
    (hrest : firstMnemonic rows b = some j.mnemonic) :
    firstMnemonic (row :: rows) b = some (if b[0] = tag then i else j).mnemonic :=
  firstMnemonic_cons (by simp [OpcodeRow.admits_iff hasks]) hname hrest

/-- A row that asks for a tag and a second byte (R75, R76). -/
theorem firstMnemonic_tag_byte1 {tag byte1 : Byte} (hasks : row.Asks (some tag) (some byte1) none)
    (hname : row.mnemonic = i.mnemonic) (hrest : firstMnemonic rows b = some j.mnemonic) :
    firstMnemonic (row :: rows) b = some (if b[0] = tag ∧ b[1] = byte1 then i else j).mnemonic :=
  firstMnemonic_cons (by simp [OpcodeRow.admits_iff hasks]) hname hrest

/-- A row that asks for a tag and a third byte (R74). -/
theorem firstMnemonic_tag_byte2 {tag byte2 : Byte} (hasks : row.Asks (some tag) none (some byte2))
    (hname : row.mnemonic = i.mnemonic) (hrest : firstMnemonic rows b = some j.mnemonic) :
    firstMnemonic (row :: rows) b = some (if b[0] = tag ∧ b[2] = byte2 then i else j).mnemonic :=
  firstMnemonic_cons (by simp [OpcodeRow.admits_iff hasks]) hname hrest

/-- The row that asks for nothing: a report that reaches it matches it. -/
theorem firstMnemonic_any (hasks : row.Asks none none none) (hname : row.mnemonic = i.mnemonic) :
    firstMnemonic (row :: rows) b = some i.mnemonic := by
  rw [firstMnemonic_of_admits (by simp [OpcodeRow.admits_iff hasks]), hname]

end

/-- Settles O5: the decoder's tests are the rows of the table, in the table's order. -/
theorem decoderFollowsTheOpcodeTable : Obligations.DecoderFollowsTheOpcodeTable := by
  intro b now
  rw [tableMnemonic_eq_firstMnemonic]
  unfold opcodeTable decodeReport
  -- Tags 1 to 8 and 14.
  iterate 9 refine firstMnemonic_tag (by decide) rfl ?_
  -- Effect Operation: 1, 2 and 3 in the third byte.
  iterate 3 refine firstMnemonic_tag_byte2 (by decide) rfl ?_
  -- Block Free: 255 in the second byte, then any other.
  refine firstMnemonic_tag_byte1 (by decide) rfl (firstMnemonic_tag (by decide) rfl ?_)
  -- Device Control: 1 to 6 in the second byte.
  iterate 6 refine firstMnemonic_tag_byte1 (by decide) rfl ?_
  -- Device Gain, then IGNORED.
  exact firstMnemonic_tag (by decide) rfl (firstMnemonic_any (by decide) rfl)

/-! ## Encoding and decoding -/

/-- R66 to R77: every operand of every well-formed command survives. -/
theorem decode_encode {i : Instr} (h : i.wellFormed = true) : decode (encode i) = .ok i := by
  cases i with
  | setEffect => exact Laws.DecodeOfEncode.setEffect _ _ _ _ _ _ _ h
  | setEnvelope => exact Laws.DecodeOfEncode.setEnvelope _ _ _ _ _ h
  | setCondition => exact Laws.DecodeOfEncode.setCondition _ _ _ _ _ _ _ _ h
  | setPeriodic => exact Laws.DecodeOfEncode.setPeriodic _ _ _ _ _ h
  | setConstant => exact Laws.DecodeOfEncode.setConstant _ _ h
  | setRamp => exact Laws.DecodeOfEncode.setRamp _ _ _ h
  | custom7 => exact Laws.DecodeOfEncode.custom7 h
  | custom8 => exact Laws.DecodeOfEncode.custom8 h
  | custom14 => exact Laws.DecodeOfEncode.custom14 h
  | effectStart => exact Laws.DecodeOfEncode.effectStart _ _ _ h
  | effectStartSolo => exact Laws.DecodeOfEncode.effectStartSolo _ _ _ h
  | effectStop => exact Laws.DecodeOfEncode.effectStop _ _ h
  | blockFreeAll => exact Laws.DecodeOfEncode.blockFreeAll h
  | blockFree => exact Laws.DecodeOfEncode.blockFree _ h
  | dcEnableActuators => exact Laws.DecodeOfEncode.dcEnableActuators h
  | dcDisableActuators => exact Laws.DecodeOfEncode.dcDisableActuators h
  | dcStopAll => exact Laws.DecodeOfEncode.dcStopAll h
  | dcFreeAll => exact Laws.DecodeOfEncode.dcFreeAll h
  | dcPause => exact Laws.DecodeOfEncode.dcPause h
  | dcContinue => exact Laws.DecodeOfEncode.dcContinue h
  | deviceGain => exact Laws.DecodeOfEncode.deviceGain _ h
  | ignored => exact Laws.DecodeOfEncode.ignored _ _ _ h
  | create => exact Laws.DecodeOfEncode.create h
  | getBlockLoad => exact Laws.DecodeOfEncode.getBlockLoad h
  | getPool => exact Laws.DecodeOfEncode.getPool h
  | tick => exact Laws.DecodeOfEncode.tick _ _ _ h

/-- R80: the row that admits the bytes of a report is the row of its command. -/
theorem tableMnemonic_of_decode {r : Request} {i : Instr} (hkind : r.kind = 0) (hdecode : decode r = .ok i) :
    tableMnemonic r.report = some i.mnemonic := by
  rw [decode_report hkind] at hdecode
  rw [decoderFollowsTheOpcodeTable r.report r.now, Except.ok.inj hdecode]

/-- Settles O3: the round trip holds for each command, and the table's row is the one of the command decoded. -/
theorem decodeInvertsEncode : Obligations.DecodeInvertsEncode := fun _ hwf =>
  ⟨decode_encode hwf, fun hkind => tableMnemonic_of_decode hkind (decode_encode hwf)⟩

end Sys2Proof
end

section
/-! PROOFS. The step of a request that a word encodes, and of one of a reserved kind (spec/30_encoding.md R59, R60). -/

namespace Sys2Proof.Machine

theorem decodeTableWord_eq_some_iff (nbits w : Nat) (i : Instr) :
    decodeTableWord nbits w = some i ↔ decode (requestOfWord nbits w) = .ok i := by
  unfold decodeTableWord
  cases decode (requestOfWord nbits w) <;> simp

/-- Settles O9: the word's request is the one accepted, so the step runs the command that it decodes to. -/
theorem fetchWordRunsNext : Obligations.FetchWordRunsNext := by
  intro s nbits w i hword
  have hdecode := (decodeTableWord_eq_some_iff nbits w i).mp hword
  obtain ⟨rest, haccept⟩ := acceptNext_presentFirst s (requestOfWord nbits w)
  exact ⟨rest, stepRunsTheDecodedCommand (s.withFetchWord nbits w) _ rest i rfl haccept hdecode⟩

/-- Settles O11: the decoder turns the request down, and the core answers it on the state without it. -/
theorem reservedKindChangesNothing : Obligations.ReservedKindChangesNothing := by
  intro s r rest hreset haccept hkind
  have hreserved : 5 ≤ r.kind.toNat := by bv_omega
  calc step s = transact s := step_of_released hreset
    _ = answerReserved (s.setPending rest) := transact_of_decode_error haccept (decode_reserved hreserved)

end Sys2Proof.Machine
end

section
/-! PROOFS. The allocator (spec/40_effect_table.md R87, R88, R93) as CREATE and BLOCK_FREE use it. -/

namespace Sys2Proof.Machine

/-! ## CREATE -/

/-- The scan runs past every record when all from its start on are occupied. -/
theorem lt_nextEligible_of_occupied {s : State} {a : Nat} (hocc : ∀ j, a ≤ j → j ≤ 14 → (s.slot j).state ≠ 0) :
    14 < nextEligible s a := by
  by_contra hle
  have hid : nextEligible s a ≤ 14 := by omega
  obtain ⟨hge, -⟩ := nextEligible_occupied_below hid
  obtain ⟨-, -, -, hstop⟩ := nextEligible_spec s (a := a) (by omega)
  exact hocc _ hge hid ((Slot.eligible_iff _).mp (hstop hid))

/-- R87: the second scan stops at a free record, or past the table. -/
theorem allocate_cursor_free {c : Config} {s t : State} {id : Nat} (h : allocate c s = some (id, t))
    (hcursor : t.cursor.toNat ≤ 14) : (t.slot t.cursor.toNat).state = 0 := by
  simp only [allocate, Option.ite_none_left_eq_some, Option.some.injEq, Prod.mk.injEq] at h
  obtain ⟨hid, heq, rfl⟩ := h
  rw [heq] at hid hcursor ⊢
  have hle : id ≤ 14 := Nat.not_lt.mp hid
  set s₁ := (s.setSlot id freshSlot).setPool (poolDebit c s.pool)
  obtain ⟨-, hrange, -, hstop⟩ := nextEligible_spec s₁ (a := id + 1) (by omega)
  have hnat : (BitVec.ofNat 8 (nextEligible s₁ (id + 1))).toNat = nextEligible s₁ (id + 1) := by
    rw [BitVec.toNat_ofNat]
    omega
  rw [State.setCursor_cursor, hnat] at hcursor ⊢
  exact (Slot.eligible_iff _).mp (hstop hcursor)

/-- Settles O31: the two cases of the allocator. Where it hands out a record, the scan's answer is `id`. -/
theorem createAllocatesOrReportsCapacity : Obligations.CreateAllocatesOrReportsCapacity := by
  refine ⟨fun s id hlow hhigh hfree hocc => ?_, fun s hocc => ?_⟩
  · have hid : nextEligible s s.cursor.toNat = id := nextEligible_eq hlow hhigh hfree hocc
    rcases allocate_spec s Config.implementation with ⟨hfull, -⟩ |
      ⟨-, t, hsome, hslot, hpool, hlt, hrange, habove, hpaused, hgain, -, hpending, hreset, -⟩
    · omega
    rw [hid] at hsome hslot hlt habove
    refine ⟨_, createWith_of_some hsome, hslot, hpool, hlt, hrange, fun j hj hj' => ?_, fun hle => ?_, rfl, rfl,
      hpaused, hgain, hpending, hreset⟩
    · exact (Slot.eligible_eq_false_iff _).mp (habove j hj hj')
    · have hstop := allocate_cursor_free hsome hle
      rwa [hslot, if_neg (by omega)] at hstop
  · have hfull : 14 < nextEligible s s.cursor.toNat := lt_nextEligible_of_occupied hocc
    rcases allocate_spec s Config.implementation with ⟨-, hnone⟩ | ⟨hid, -⟩
    · exact createWith_of_none hnone
    · omega

/-! ## BLOCK_FREE, then CREATE -/

/-- Settles O34: the freed record is the first free one from the cursor on, wherever the cursor was. -/
theorem freeThenCreateReusesTheIndex : Obligations.FreeThenCreateReusesTheIndex := by
  intro s index hrange _ hlow hhigh hocc
  set t := (free index s).setResponse (some .empty)
  have hcursor : 1 ≤ t.cursor.toNat ∧ t.cursor.toNat ≤ index.toNat := by
    obtain ⟨hone, -⟩ := hrange
    rw [State.setResponse_cursor, free_cursor]
    split <;> omega
  have hfreed : (t.slot index.toNat).state = 0 := by
    rw [State.setResponse_slot, free_slot, if_pos ⟨⟨hlow, hhigh⟩, rfl⟩, Slot.clearState_state]
  have hbelow : ∀ j, t.cursor.toNat ≤ j → j < index.toNat → (t.slot j).state ≠ 0 := by
    intro j hj hlt
    rw [State.setResponse_slot, free_slot, if_neg (by omega)]
    exact hocc j (hcursor.1.trans hj) hlt
  obtain ⟨u, hcreate, hslot, -, -, -, -, -, -, hresponse, -⟩ :=
    createAllocatesOrReportsCapacity.1 t index.toNat hcursor.2 hhigh hfreed hbelow
  have hindex : BitVec.ofNat 8 index.toNat = index := by simp
  exact ⟨t, u, rfl, hcreate, hindex ▸ hresponse, by rw [hslot, if_pos rfl]⟩

/-! ## Allocating from reset -/

/-- The state that CREATE leaves (R152). -/
def afterCreate (s : State) : State :=
  match allocate Config.implementation s with
  | none => (s.setBlockLoad 0 2).setResponse (some (.created 0 2 s.pool))
  | some (id, t) =>
    (t.setBlockLoad (BitVec.ofNat 8 id) 1).setResponse (some (.created (BitVec.ofNat 8 id) 1 t.pool))

theorem exec_create (s : State) : exec .create s = .next (afterCreate s) := by
  unfold afterCreate
  split
  · next hnone => exact createWith_of_none hnone
  · next hsome => exact createWith_of_some hsome

/-- The first `k` records are allocated and no other, and the cursor and the pool say so. -/
structure FirstAllocated (k : Nat) (s : State) : Prop where
  slot : ∀ j, s.slot j = if 1 ≤ j ∧ j ≤ k then freshSlot else Slot.zero
  cursor : s.cursor.toNat = k + 1
  pool : s.pool = BitVec.ofNat 16 ((14 - k) * Config.implementation.footprint)

theorem firstAllocated_reset : FirstAllocated 0 State.reset where
  slot j := by rw [State.reset_slot, if_neg (by omega)]
  cursor := rfl
  pool := rfl

theorem FirstAllocated.state_eq_zero {k j : Nat} {s : State} (h : FirstAllocated k s) (hj : k < j) :
    (s.slot j).state = 0 := by
  rw [h.slot, if_neg (by omega)]
  rfl

/-- A pool of `n + 1` footprints debited by one. -/
theorem footprints_sub_footprint (n f : Nat) :
    BitVec.ofNat 16 ((n + 1) * f) - BitVec.ofNat 16 f = BitVec.ofNat 16 (n * f) := by
  rw [Nat.succ_mul, BitVec.ofNat_add, BitVec.add_sub_cancel]

/-- R93 (a): the next CREATE takes record `k + 1`, and its second scan stops at once behind it. -/
theorem FirstAllocated.succ {k : Nat} {s : State} (h : FirstAllocated k s) (hk : k < 14) :
    FirstAllocated (k + 1) (afterCreate s)
      ∧ (afterCreate s).response = some (.created (BitVec.ofNat 8 (k + 1)) 1 (afterCreate s).pool) := by
  have hcursor : s.cursor.toNat = k + 1 := h.cursor
  obtain ⟨t, hexec, hslot, hpool, hlt, hrange, habove, -, -, hresponse, -⟩ :=
    createAllocatesOrReportsCapacity.1 s (k + 1) hcursor.le hk (h.state_eq_zero (by omega)) (by omega)
  cases (exec_create s).symm.trans hexec
  refine ⟨⟨fun j => ?_, ?_, ?_⟩, hresponse⟩
  · rw [hslot, h.slot]
    by_cases hj : j = k + 1
    · rw [if_pos hj, if_pos (by omega)]
      rfl
    · rw [if_neg hj]
      exact if_congr (by omega) rfl rfl
  · by_contra hne
    exact habove (k + 2) (by omega) (by omega) (h.state_eq_zero (by omega))
  · rw [hpool, h.pool, show 14 - k = (14 - (k + 1)) + 1 by omega, footprints_sub_footprint]

/-- R93 (a): with all fourteen allocated the pool is 0 and the cursor past the table, so CREATE reports capacity
exceeded. -/
theorem FirstAllocated.exec_create_full {s : State} (h : FirstAllocated 14 s) :
    exec .create s = .next { s with blockLoad := ⟨0, 2⟩, response := some (.created 0 2 0) } := by
  have hcursor : s.cursor.toNat = 15 := h.cursor
  have hpool : s.pool = 0 := by simpa using h.pool
  rw [createAllocatesOrReportsCapacity.2 s (by omega), hpool]

theorem firstAllocated_iterate {k : Nat} (hk : k ≤ 14) : FirstAllocated k (afterCreate^[k] State.reset) := by
  induction k with
  | zero => exact firstAllocated_reset
  | succ k ih =>
    rw [Function.iterate_succ_apply']
    exact ((ih (by omega)).succ hk).1

/-- Settles O35: each of the fourteen finds the next record free, and then the cursor is past the table. -/
theorem fourteenAllocationsFromReset : Obligations.FourteenAllocationsFromReset := by
  refine ⟨fun k => afterCreate^[k] State.reset, rfl, fun k hk => ?_, ?_⟩
  · simp only [Function.iterate_succ_apply']
    obtain ⟨hnext, hresponse⟩ := (firstAllocated_iterate hk.le).succ hk
    refine ⟨exec_create _, hresponse.trans ?_⟩
    rw [hnext.pool, show 14 - (k + 1) = 13 - k by omega]
  · exact (firstAllocated_iterate le_rfl).exec_create_full

end Sys2Proof.Machine
end

section
/-! PROOFS. The reports of the dispatcher (spec/41_report_dispatcher.md R96 to R117): what each leaves in the table, in
the device-wide registers and on the response port. -/

namespace Sys2Proof.Machine

/-! ## Parameter updates and EFFECT_START: one record is changed -/

/-- R46, R59: a command that changes the record its index byte addresses is acknowledged and changes nothing else. `g k`
is record `k` as the command's rule changes it. -/
theorem exec_of_updateTarget {i : Instr} {s : State} {index : Byte} {f : Slot → Slot} {g : Nat → Slot}
    (hexec : exec i s = answer .empty (s.updateTarget index f)) (hchange : ∀ k, f (s.slot k) = g k) :
    ∃ t, exec i s = .next t
      ∧ (∀ k, t.slot k = if (1 ≤ index.toNat ∧ index.toNat ≤ 14) ∧ k = index.toNat then g k else s.slot k)
      ∧ SameRegisters s t ∧ SamePorts s t ∧ t.response = some .empty := by
  obtain ⟨hcursor, hpool, hpaused, hgain, hload, hpending, hreset, -⟩ := s.updateTarget_frame index f
  refine ⟨_, hexec, fun k => ?_, ⟨hcursor, hpool, hpaused, hgain, hload⟩, ⟨hpending, hreset⟩, rfl⟩
  rw [State.setResponse_slot, State.updateTarget_slot, hchange]

/-- Settles O15: one record is changed, by the six fields. -/
theorem setEffectOverwrites : Obligations.SetEffectOverwrites :=
  fun _ _ _ _ _ _ _ _ => exec_of_updateTarget rfl fun _ => rfl

/-- Settles O16: one record is changed, by the four envelope fields. -/
theorem setEnvelopeOverwrites : Obligations.SetEnvelopeOverwrites :=
  fun _ _ _ _ _ _ => exec_of_updateTarget rfl fun _ => rfl

/-- Settles O18: one record is changed, by the four periodic fields. -/
theorem setPeriodicOverwrites : Obligations.SetPeriodicOverwrites :=
  fun _ _ _ _ _ _ => exec_of_updateTarget rfl fun _ => rfl

/-- Settles O19: one record is changed, by the magnitude. -/
theorem setConstantOverwrites : Obligations.SetConstantOverwrites :=
  fun _ _ _ => exec_of_updateTarget rfl fun _ => rfl

/-- Settles O20: one record is changed, by the two ramp fields. -/
theorem setRampOverwrites : Obligations.SetRampOverwrites :=
  fun _ _ _ _ => exec_of_updateTarget rfl fun _ => rfl

/-- R45, R69: each of the two blocks is overwritten where the block offset names it. -/
theorem Slot.setConditionBlock_eq (r : Slot) (blockOffset : Byte) (b : ConditionBlock) :
    r.setConditionBlock blockOffset b
      = { r with
          cond0 := if blockOffset = 0 then b else r.cond0
          cond1 := if blockOffset = 1 then b else r.cond1 } := by
  unfold Slot.setConditionBlock
  by_cases hzero : blockOffset = 0
  · subst hzero
    rfl
  · by_cases hone : blockOffset = 1
    · subst hone
      rfl
    · simp only [if_neg hzero, if_neg hone]

/-- R12: a wrapping addition is the sum of naturals modulo `2^w`. -/
theorem add_ofNat_eq {w : Nat} (v : BitVec w) (n : Nat) : v + BitVec.ofNat w n = BitVec.ofNat w (v.toNat + n) := by
  rw [BitVec.ofNat_add, BitVec.ofNat_toNat, BitVec.setWidth_eq]

/-- R12, R98: the count goes up by 1 modulo 256. -/
theorem countAccepted_eq (count : Byte) : countAccepted count = BitVec.ofNat 8 (count.toNat + 1) :=
  add_ofNat_eq count 1

/-- R98: a report whose block offset names no block is acknowledged alone. -/
theorem exec_setCondition_of_gt (index : Byte) {blockOffset : Byte}
    (cpOffset posCoef negCoef posSat negSat deadBand : Half) (s : State) (h : 1 < blockOffset.toNat) :
    exec (.setCondition index blockOffset cpOffset posCoef negCoef posSat negSat deadBand) s = answer .empty s :=
  congrArg (answer .empty) (if_pos h)

/-- R98: a report whose block offset names a block is one change of one record. -/
theorem exec_setCondition_of_le (index : Byte) {blockOffset : Byte}
    (cpOffset posCoef negCoef posSat negSat deadBand : Half) (s : State) (h : blockOffset.toNat ≤ 1) :
    exec (.setCondition index blockOffset cpOffset posCoef negCoef posSat negSat deadBand) s
      = answer .empty (s.updateTarget index fun r =>
          { r.setConditionBlock blockOffset ⟨cpOffset, posCoef, negCoef, posSat, negSat, deadBand⟩ with
            conditionBlocksCount := countAccepted r.conditionBlocksCount }) :=
  congrArg (answer .empty) (if_neg (Nat.not_lt.mpr h))

/-- Settles O17: a block offset above 1 leaves the state alone, and any other lets the index byte address its record. -/
theorem setConditionOverwritesAndCounts : Obligations.SetConditionOverwritesAndCounts := by
  intro index blockOffset cpOffset posCoef negCoef posSat negSat deadBand s
  by_cases hoffset : 1 < blockOffset.toNat
  · simp only [Nat.not_le.mpr hoffset, and_false, if_false]
    exact ⟨_, exec_setCondition_of_gt _ _ _ _ _ _ _ _ hoffset, s.setResponse_slot _, ⟨rfl, rfl, rfl, rfl, rfl⟩,
      ⟨rfl, rfl⟩, rfl⟩
  · have hnamed : blockOffset.toNat ≤ 1 := by omega
    simp only [hnamed, and_true]
    have hexec := exec_setCondition_of_le index cpOffset posCoef negCoef posSat negSat deadBand s hnamed
    refine exec_of_updateTarget hexec fun k => ?_
    rw [Slot.setConditionBlock_eq, countAccepted_eq]

/-- R105: a loop count other than 0 and 255 is in 1..254. -/
theorem loopedDuration_eq (duration : Half) (loopCount : Byte) :
    loopedDuration duration loopCount
      = if loopCount = 0 then duration
        else if loopCount = 255 then 0x7FFF
        else BitVec.ofNat 16 (duration.toNat * loopCount.toNat) := by
  unfold loopedDuration
  by_cases hzero : loopCount = 0
  · subst hzero
    rfl
  · by_cases hmax : loopCount = 255
    · subst hmax
      rfl
    · have hmul : 1 ≤ loopCount.toNat ∧ loopCount.toNat ≤ 254 := by bv_omega
      rw [if_pos hmul, if_neg hzero, if_neg hmax]
      rfl

/-- Settles O24: the loop arithmetic and the start are one change of one record. -/
theorem effectStartLoopsAndStarts : Obligations.EffectStartLoopsAndStarts := by
  intro index loopCount now s
  refine exec_of_updateTarget (exec_effectStart index loopCount now s) fun k => ?_
  simp only [Function.comp_apply, loopedDuration_eq]
  rfl

/-! ## Reports that stop or free records -/

/-- The pool after `n` credits, as a sum of naturals modulo 2^16 (R12). -/
theorem creditedPool_eq (c : Config) (pool : Half) (n : Nat) :
    creditedPool c pool n = BitVec.ofNat 16 (pool.toNat + n * c.footprint) :=
  add_ofNat_eq pool (n * c.footprint)

theorem poolCredit_eq (c : Config) (pool : Half) :
    poolCredit c pool = BitVec.ofNat 16 (pool.toNat + c.footprint) :=
  add_ofNat_eq pool c.footprint

/-- The registers that the allocator does not use, the request port and the reset input are unchanged. -/
structure KeepsFlagsAndPorts (s t : State) : Prop where
  paused : t.paused = s.paused
  deviceGain : t.deviceGain = s.deviceGain
  blockLoad : t.blockLoad = s.blockLoad
  ports : SamePorts s t

theorem updateTarget_keepsFlagsAndPorts {s u : State} (h : KeepsFlagsAndPorts s u) (index : Byte) (f : Slot → Slot) :
    KeepsFlagsAndPorts s (u.updateTarget index f) where
  paused := (u.updateTarget_paused index f).trans h.paused
  deviceGain := (u.updateTarget_deviceGain index f).trans h.deviceGain
  blockLoad := (u.updateTarget_blockLoad index f).trans h.blockLoad
  ports := ⟨(u.updateTarget_pending index f).trans h.ports.pending,
    (u.updateTarget_resetInput index f).trans h.ports.resetInput⟩

theorem stop_keepsFlagsAndPorts (c : Config) (index : Byte) (s : State) : KeepsFlagsAndPorts s (stop c index s) := by
  obtain ⟨-, hpaused, hgain, hload, hpending, hreset, -⟩ := stop_frame s c index
  exact ⟨hpaused, hgain, hload, ⟨hpending, hreset⟩⟩

theorem stopAll_keepsFlagsAndPorts (c : Config) (s : State) : KeepsFlagsAndPorts s (stopAll c s) := by
  obtain ⟨-, -, -, hpaused, hgain, hload, hpending, hreset, -⟩ := stopAll_spec s c
  exact ⟨hpaused, hgain, hload, ⟨hpending, hreset⟩⟩

theorem free_keepsFlagsAndPorts (index : Byte) (s : State) : KeepsFlagsAndPorts s (free index s) := by
  obtain ⟨-, hpaused, hgain, hload, hpending, hreset, -⟩ := free_frame s index
  exact ⟨hpaused, hgain, hload, ⟨hpending, hreset⟩⟩

theorem freeAll_keepsFlagsAndPorts (c : Config) (s : State) : KeepsFlagsAndPorts s (freeAll c s) := by
  obtain ⟨-, -, -, hpaused, hgain, hload, hpending, hreset, -⟩ := freeAll_spec s c
  exact ⟨hpaused, hgain, hload, ⟨hpending, hreset⟩⟩

/-- R59: a command that leaves the flags and ports alone is acknowledged with the records, the pool and the cursor it
leaves. -/
theorem exec_of_keepsFlagsAndPorts {i : Instr} {s u : State} {slot : Nat → Slot} {pool : Half} {cursor : Byte}
    (hexec : exec i s = answer .empty u) (hkeeps : KeepsFlagsAndPorts s u) (hslot : ∀ k, u.slot k = slot k)
    (hpool : u.pool = pool) (hcursor : u.cursor = cursor) :
    ∃ t, exec i s = .next t ∧ (∀ k, t.slot k = slot k) ∧ t.pool = pool ∧ t.cursor = cursor ∧ t.paused = s.paused
      ∧ t.deviceGain = s.deviceGain ∧ t.blockLoad = s.blockLoad ∧ SamePorts s t ∧ t.response = some .empty :=
  ⟨_, hexec, hslot, hpool, hcursor, hkeeps.paused, hkeeps.deviceGain, hkeeps.blockLoad,
    ⟨hkeeps.ports.pending, hkeeps.ports.resetInput⟩, rfl⟩

/-- A change of all 15 records that keeps a zero record is a change at every index: above the table every record reads
as zero. -/
theorem State.slot_of_all {s t : State} {f : Slot → Slot} (hzero : f .zero = .zero)
    (hslot : ∀ k, t.slot k = if k < 15 then f (s.slot k) else s.slot k) (k : Nat) : t.slot k = f (s.slot k) := by
  rw [hslot]
  by_cases hk : k < 15
  · rw [if_pos hk]
  · rw [if_neg hk, State.slot_of_ge s (Nat.not_lt.mp hk), hzero]

/-- R92: `stopAll` clears the playing bit of every record. -/
theorem stopAll_slot (c : Config) (s : State) (k : Nat) : (stopAll c s).slot k = (s.slot k).clearPlaying :=
  State.slot_of_all rfl (stopAll_spec s c).1 k

/-- R89: `freeAll` clears the state of every record. -/
theorem freeAll_slot (c : Config) (s : State) (k : Nat) : (freeAll c s).slot k = (s.slot k).clearState :=
  State.slot_of_all rfl (freeAll_spec s c).1 k

theorem stopAll_pool (c : Config) (s : State) :
    (stopAll c s).pool = BitVec.ofNat 16 (s.pool.toNat + 15 * c.footprint) := by
  obtain ⟨-, hpool, -⟩ := stopAll_spec s c
  rw [hpool, creditedPool_eq]

theorem stopAll_cursor (c : Config) (s : State) : (stopAll c s).cursor = s.cursor := by
  obtain ⟨-, -, hcursor, -⟩ := stopAll_spec s c
  exact hcursor

/-- Settles O29: the answer to `stopAll`. -/
theorem stopAllCreditsEverySlot : Obligations.StopAllCreditsEverySlot := fun s =>
  exec_of_keepsFlagsAndPorts rfl (stopAll_keepsFlagsAndPorts _ s) (stopAll_slot _ s) (stopAll_pool _ s)
    (stopAll_cursor _ s)

/-- Settles O25: `stopAll`, whatever the index, and then one change of the record that the index addresses. -/
theorem effectStartSoloStopsAllThenStarts : Obligations.EffectStartSoloStopsAllThenStarts := by
  intro index loopCount now s
  refine exec_of_keepsFlagsAndPorts (exec_effectStartSolo index loopCount now s)
    (updateTarget_keepsFlagsAndPorts (stopAll_keepsFlagsAndPorts _ s) index _) (fun k => ?_)
    ((State.updateTarget_pool ..).trans (stopAll_pool _ s))
    ((State.updateTarget_cursor ..).trans (stopAll_cursor _ s))
  rw [State.updateTarget_slot, stopAll_slot]
  rfl

/-- Settles O26: the answer to `stop`. -/
theorem effectStopClearsAndCredits : Obligations.EffectStopClearsAndCredits := by
  intro index loopCount s
  obtain ⟨hcursor, -⟩ := stop_frame s Config.implementation index
  refine exec_of_keepsFlagsAndPorts rfl (stop_keepsFlagsAndPorts _ index s) (stop_slot s _ index) ?_ hcursor
  rw [stop_pool, poolCredit_eq]

/-- Settles O27: both commands are the answer to `freeAll`. -/
theorem freeAllCommandsRestoreTheAllocator : Obligations.FreeAllCommandsRestoreTheAllocator := by
  intro i s hi
  have hexec : exec i s = answer .empty (freeAll Config.implementation s) := by
    rcases hi with rfl | rfl <;> rfl
  obtain ⟨-, hcursor, hpool, -⟩ := freeAll_spec s Config.implementation
  obtain ⟨t, hnext, hslot, hpool', hcursor', hkept⟩ :=
    exec_of_keepsFlagsAndPorts hexec (freeAll_keepsFlagsAndPorts _ s) (freeAll_slot _ s) hpool hcursor
  exact ⟨t, hnext, hslot, hcursor', hpool', hkept⟩

/-- Settles O28: the answer to `free`. -/
theorem blockFreeLowersTheCursor : Obligations.BlockFreeLowersTheCursor := by
  intro index s
  obtain ⟨hpool, -⟩ := free_frame s index
  obtain ⟨t, hnext, hslot, hpool', hcursor', hkept⟩ :=
    exec_of_keepsFlagsAndPorts (i := .blockFree index) rfl (free_keepsFlagsAndPorts index s) (free_slot s index) hpool
      (free_cursor s index)
  exact ⟨t, hnext, hslot, hcursor', hpool', hkept⟩

/-! ## Reports that change no record -/

/-- Settles O22: each tag selects its command, and the command answers the state as it is. -/
theorem acceptedReportsChangeNothing : Obligations.AcceptedReportsChangeNothing := by
  intro b now s
  refine ⟨decodeReport_custom7, decodeReport_custom8, decodeReport_custom14, fun htag hctl => ?_, fun htag hctl => ?_,
    rfl, rfl, rfl, rfl, rfl⟩
  · rw [decodeReport_deviceControl htag, if_pos hctl]
  · rw [decodeReport_deviceControl htag, if_neg (by rw [hctl]; decide), if_pos hctl]

/-- R117: an Effect Operation with an operation byte of 0 or 4..255. -/
theorem decodeReport_ignoredOperation {b : Vector Byte 16} {now : Stamp} (htag : b[0] = 10)
    (hop : b[2] = 0 ∨ 4 ≤ b[2].toNat) : decodeReport b now = .ignored b[0] b[1] b[2] := by
  have hne : b[2] ≠ 1 ∧ b[2] ≠ 2 ∧ b[2] ≠ 3 := by bv_omega
  obtain ⟨h1, h2, h3⟩ := hne
  rw [decodeReport_effectOperation htag, if_neg h1, if_neg h2, if_neg h3, htag]

/-- R117: a Device Control with a control byte of 0 or 7..255. -/
theorem decodeReport_ignoredControl {b : Vector Byte 16} {now : Stamp} (htag : b[0] = 12)
    (hctl : b[1] = 0 ∨ 7 ≤ b[1].toNat) : decodeReport b now = .ignored b[0] b[1] b[2] := by
  have hne : b[1] ≠ 1 ∧ b[1] ≠ 2 ∧ b[1] ≠ 3 ∧ b[1] ≠ 4 ∧ b[1] ≠ 5 ∧ b[1] ≠ 6 := by bv_omega
  obtain ⟨h1, h2, h3, h4, h5, h6⟩ := hne
  rw [decodeReport_deviceControl htag, if_neg h1, if_neg h2, if_neg h3, if_neg h4, if_neg h5, if_neg h6, htag]

/-- Settles O23: the tag names no layout, or its selector byte names no command of the tag. -/
theorem ignoredReportsChangeNothing : Obligations.IgnoredReportsChangeNothing := by
  refine ⟨fun b now hignored => ?_, fun _ _ _ _ => rfl⟩
  rcases hignored with htag | htag | htag | ⟨htag, hop⟩ | ⟨htag, hctl⟩
  · exact decodeReport_otherTag (.inl htag)
  · exact decodeReport_otherTag (.inr (.inl htag))
  · exact decodeReport_otherTag (.inr (.inr htag))
  · exact decodeReport_ignoredOperation htag hop
  · exact decodeReport_ignoredControl htag hctl

/-- Settles O30: each command answers the state with its one register written. -/
theorem deviceRegistersAreWritten : Obligations.DeviceRegistersAreWritten := fun _ _ => ⟨rfl, rfl, rfl⟩

end Sys2Proof.Machine
end

section
/-! PROOFS. What a record's effect type selects (spec/42_waveform_engine.md R118, spec/44_force_reducer.md R147): the
generator of a waveform type, and the engine whose value a type's gain multiplies. -/

namespace Sys2Proof.Machine

section
variable (c : Config) {r : Slot}

/-! ## The generator of each waveform type -/

theorem rawWave_constant (h : r.effectType = 1) : rawWave c r = rawConstant r := by unfold rawWave; rw [h]; rfl

theorem rawWave_ramp (h : r.effectType = 2) : rawWave c r = rawRamp r := by unfold rawWave; rw [h]; rfl

theorem rawWave_square (h : r.effectType = 3) : rawWave c r = rawSquare r := by unfold rawWave; rw [h]; rfl

theorem rawWave_sine (h : r.effectType = 4) : rawWave c r = rawSine c r := by unfold rawWave; rw [h]; rfl

theorem rawWave_triangle (h : r.effectType = 5) : rawWave c r = rawTriangle r := by unfold rawWave; rw [h]; rfl

theorem rawWave_sawtoothDown (h : r.effectType = 6) : rawWave c r = rawSawtoothDown r := by
  unfold rawWave; rw [h]; rfl

theorem rawWave_sawtoothUp (h : r.effectType = 7) : rawWave c r = rawSawtoothUp r := by unfold rawWave; rw [h]; rfl

/-! ## The engine of each type -/

/-- The engine's value that the gain of an effect type multiplies (R147). -/
def engineForce (r : Slot) (a : Axis) (smp : SampleRecord) : EffectType → Int
  | .constant | .ramp | .square | .sine | .triangle | .sawtoothDown | .sawtoothUp => wave c r
  | .spring => springForce r a smp
  | .damper => damperForce r a smp
  | .inertia => inertiaForce c.inertia r a smp
  | .friction => frictionForce r a smp
  | .custom | .untyped => 0

variable (a : Axis) (smp : SampleRecord)

/-- R147: every contribution is the value of one engine times one gain, both selected by the effect type. -/
theorem contribution_eq_engineForce (r : Slot) :
    contribution c r a smp
      = engineForce c r a smp (effectTypeOf r.effectType) * (c.typeGain (effectTypeOf r.effectType)).toNat := by
  unfold contribution
  cases effectTypeOf r.effectType
  case custom | untyped => exact (zero_mul _).symm
  all_goals rfl

/-- R147: the types 1 to 7 are served by the waveform engine. -/
theorem contribution_waveform (h : 1 ≤ r.effectType.toNat ∧ r.effectType.toNat ≤ 7) :
    contribution c r a smp = wave c r * (c.typeGain (effectTypeOf r.effectType)).toNat := by
  have htype : r.effectType = 1 ∨ r.effectType = 2 ∨ r.effectType = 3 ∨ r.effectType = 4 ∨ r.effectType = 5
      ∨ r.effectType = 6 ∨ r.effectType = 7 := by bv_omega
  rw [contribution_eq_engineForce]
  rcases htype with h | h | h | h | h | h | h <;> rw [h] <;> rfl

theorem contribution_spring (h : r.effectType = 8) :
    contribution c r a smp = cond r a smp.springPos smp.springMax * (c.typeGain .spring).toNat := by
  rw [contribution_eq_engineForce, h]; rfl

theorem contribution_damper (h : r.effectType = 9) :
    contribution c r a smp = cond r a smp.damperVel smp.damperMax * (c.typeGain .damper).toNat := by
  rw [contribution_eq_engineForce, h]; rfl

theorem contribution_inertia (h : r.effectType = 10) :
    contribution c r a smp = inertiaForce c.inertia r a smp * (c.typeGain .inertia).toNat := by
  rw [contribution_eq_engineForce, h]; rfl

theorem contribution_friction (h : r.effectType = 11) :
    contribution c r a smp = cond r a smp.frictionPos smp.frictionMax * (c.typeGain .friction).toNat := by
  rw [contribution_eq_engineForce, h]; rfl

end

end Sys2Proof.Machine
end

section
/-! PROOFS. The seven generators (spec/42_waveform_engine.md R124 to R131): the position in the period that four of
them share, and each generator's value in closed form. -/

namespace Sys2Proof.Machine

/-! ## Fields read as numbers -/

@[simp] theorem unsigned_eq_zero_iff {v : Half} : unsigned v = 0 ↔ v = 0 := by
  unfold unsigned; bv_omega

@[simp] theorem signed_eq_zero_iff {v : Half} : signed v = 0 ↔ v = 0 :=
  ⟨fun h => BitVec.eq_of_toInt_eq h, fun h => by rw [h]; rfl⟩

theorem unsigned_pos {v : Half} (h : v ≠ 0) : 0 < unsigned v := by
  have hne : unsigned v ≠ 0 := mt unsigned_eq_zero_iff.mp h
  unfold unsigned at *; omega

/-! ## The position in the period -/

/-- R124's position, as a natural number: every term of its sum is one. -/
def positionInPeriod (r : Slot) : Nat :=
  (r.elapsedTime.toNat + r.phase.toNat * r.period.toNat / 255) % r.period.toNat

theorem phasePos_of_period_eq_zero {r : Slot} (h : r.period = 0) : phasePos r = none :=
  if_pos (unsigned_eq_zero_iff.mpr h)

theorem phasePos_of_period_ne_zero {r : Slot} (h : r.period ≠ 0) : phasePos r = some (positionInPeriod r : Int) := by
  unfold phasePos positionInPeriod
  rw [if_neg (mt unsigned_eq_zero_iff.mp h)]
  rfl

theorem positionInPeriod_add_period {r : Slot} {later : Half}
    (h : later.toNat = r.elapsedTime.toNat + r.period.toNat) :
    positionInPeriod { r with elapsedTime := later } = positionInPeriod r := by
  unfold positionInPeriod
  rw [h, Nat.add_right_comm, Nat.add_mod_right]

/-- R124: one period later the position is the same, and Degenerate where it was. -/
theorem phasePos_add_period {r : Slot} {later : Half} (h : later.toNat = r.elapsedTime.toNat + r.period.toNat) :
    phasePos { r with elapsedTime := later } = phasePos r := by
  by_cases hperiod : r.period = 0
  · rw [phasePos_of_period_eq_zero hperiod, phasePos_of_period_eq_zero (r := { r with elapsedTime := later }) hperiod]
  · rw [phasePos_of_period_ne_zero hperiod, phasePos_of_period_ne_zero (r := { r with elapsedTime := later }) hperiod,
      positionInPeriod_add_period h]

/-- R124: with a phase of 0 and within the first period the position is the elapsed time. -/
theorem positionInPeriod_of_lt {r : Slot} (hphase : r.phase = 0) (h : r.elapsedTime.toNat < r.period.toNat) :
    positionInPeriod r = r.elapsedTime.toNat := by
  have hshift : r.phase.toNat * r.period.toNat / 255 = 0 := by rw [hphase]; simp
  rw [positionInPeriod, hshift, Nat.add_zero, Nat.mod_eq_of_lt h]

/-! ## Square, Triangle and the sawtooth waves -/

/-- The distance between the two ends of Triangle and the sawtooth waves. -/
theorem waveMax_sub_waveMin (r : Slot) : waveMax r - waveMin r = 2 * r.magnitude.toInt := by
  unfold waveMax waveMin signed; ring

/-- The model's test for the second half of a period, over naturals. -/
theorem tdiv_two_lt_iff (period x : Nat) : tdiv period 2 < (x : Int) ↔ ¬ x ≤ period / 2 := by
  have hhalf : tdiv period 2 = ((period / 2 : Nat) : Int) := rfl
  rw [hhalf]; omega

section
variable {r : Slot} (h : r.period ≠ 0)
include h

theorem rawSquare_eq :
    rawSquare r = some (if positionInPeriod r ≤ r.period.toNat / 2 then 2 * r.offset.toInt + r.magnitude.toInt
      else 2 * r.offset.toInt - r.magnitude.toInt) := by
  unfold rawSquare
  rw [phasePos_of_period_ne_zero h]
  simp only [Option.map_some, unsigned, tdiv_two_lt_iff, ite_not, signed]

theorem rawTriangle_eq :
    rawTriangle r = some (if positionInPeriod r ≤ r.period.toNat / 2
      then waveMin r + Int.tdiv (4 * r.magnitude.toInt) r.period.toNat * positionInPeriod r
      else waveMin r + Int.tdiv (4 * r.magnitude.toInt) r.period.toNat * (r.period.toNat - positionInPeriod r)) := by
  have hslope : 2 * (2 * r.magnitude.toInt) = 4 * r.magnitude.toInt := by ring
  unfold rawTriangle
  rw [phasePos_of_period_ne_zero h, waveMax_sub_waveMin, hslope]
  simp only [Option.map_some, unsigned, tdiv_two_lt_iff, ite_not]
  rfl

theorem rawSawtoothDown_eq :
    rawSawtoothDown r = some (waveMin r
      + Int.tdiv (2 * r.magnitude.toInt) r.period.toNat * (r.period.toNat - positionInPeriod r)) := by
  unfold rawSawtoothDown
  rw [phasePos_of_period_ne_zero h, waveMax_sub_waveMin]
  rfl

theorem rawSawtoothUp_eq :
    rawSawtoothUp r = some (waveMin r + Int.tdiv (2 * r.magnitude.toInt) r.period.toNat * positionInPeriod r) := by
  unfold rawSawtoothUp
  rw [phasePos_of_period_ne_zero h, waveMax_sub_waveMin]
  rfl

end

section
variable (c : Config) {r : Slot}
  (htype : r.effectType = 3 ∨ r.effectType = 5 ∨ r.effectType = 6 ∨ r.effectType = 7)
include htype

/-- R124: the four types read the elapsed time through the position alone. -/
theorem rawWave_eq_map_phasePos :
    ∃ level : Int → Int, rawWave c r = (phasePos r).map level
      ∧ ∀ e : Half, rawWave c { r with elapsedTime := e } = (phasePos { r with elapsedTime := e }).map level := by
  rcases htype with htype | htype | htype | htype
  · exact ⟨_, rawWave_square c htype, fun _ => rawWave_square c htype⟩
  · exact ⟨_, rawWave_triangle c htype, fun _ => rawWave_triangle c htype⟩
  · exact ⟨_, rawWave_sawtoothDown c htype, fun _ => rawWave_sawtoothDown c htype⟩
  · exact ⟨_, rawWave_sawtoothUp c htype, fun _ => rawWave_sawtoothUp c htype⟩

/-- R119: they are Degenerate where the period is 0. -/
theorem rawWave_of_period_eq_zero (h : r.period = 0) : rawWave c r = none := by
  obtain ⟨level, hlevel, -⟩ := rawWave_eq_map_phasePos c htype
  rw [hlevel, phasePos_of_period_eq_zero h]
  rfl

end

/-- Settles O46: the position is R124's, and within the first period, with a phase of 0, the elapsed time. -/
theorem squareIsHighFirst : Obligations.SquareIsHighFirst := by
  intro c r htype
  rw [rawWave_square c htype]
  refine ⟨rawSquare_eq, fun hphase hlt => ?_⟩
  have hperiod : r.period ≠ 0 := by bv_omega
  rw [rawSquare_eq hperiod, positionInPeriod_of_lt hphase hlt]

/-- The position of R124 with its one division written over the integers. -/
theorem positionInPeriod_cast (r : Slot) :
    (positionInPeriod r : Int)
      = (r.elapsedTime.toNat + Int.fdiv (r.phase.toNat * r.period.toNat) 255) % r.period.toNat := by
  rw [Int.fdiv_eq_ediv_of_nonneg _ (by decide)]
  rfl

/-- R184: a slope of less than one unit per time unit truncates to 0. -/
theorem tdiv_eq_zero_of_natAbs_lt {a : Int} {p : Nat} (h : a.natAbs < p) : Int.tdiv a p = 0 := by
  rw [← Int.natAbs_eq_zero, Int.natAbs_tdiv, Int.natAbs_natCast]
  exact Nat.div_eq_of_lt h

/-- Settles O47: the three laws, and the laws with a slope of 0. -/
theorem flatWhereTheSlopeTruncates : Obligations.FlatWhereTheSlopeTruncates := by
  refine fun c r => ⟨?_, ?_⟩
  · rintro m low p x hperiod rfl rfl rfl rfl
    have hhalf : ∀ y : Nat, (y : Int) ≤ Int.fdiv r.period.toNat 2 ↔ y ≤ r.period.toNat / 2 := by
      intro y; rw [Int.fdiv_eq_ediv_of_nonneg _ (by decide)]; omega
    simp only [← positionInPeriod_cast, hhalf]
    exact ⟨fun htype => (rawWave_triangle c htype).trans (rawTriangle_eq hperiod),
      fun htype => (rawWave_sawtoothDown c htype).trans (rawSawtoothDown_eq hperiod),
      fun htype => (rawWave_sawtoothUp c htype).trans (rawSawtoothUp_eq hperiod)⟩
  · rintro (⟨htype, hflat⟩ | ⟨htype, hflat⟩)
    all_goals have hperiod : r.period ≠ 0 := by bv_omega
    · have hslope : Int.tdiv (4 * r.magnitude.toInt) r.period.toNat = 0 := tdiv_eq_zero_of_natAbs_lt (by omega)
      rw [rawWave_triangle c htype, rawTriangle_eq hperiod, hslope, zero_mul, zero_mul, ite_self, add_zero]
      rfl
    · have hslope : Int.tdiv (2 * r.magnitude.toInt) r.period.toNat = 0 := tdiv_eq_zero_of_natAbs_lt (by omega)
      rcases htype with htype | htype
      · rw [rawWave_sawtoothDown c htype, rawSawtoothDown_eq hperiod, hslope, zero_mul, add_zero]
        rfl
      · rw [rawWave_sawtoothUp c htype, rawSawtoothUp_eq hperiod, hslope, zero_mul, add_zero]
        rfl

/-- Settles O48: one period later the position is the same. -/
theorem periodicWavesRepeat : Obligations.PeriodicWavesRepeat := by
  intro c r later htype hlater
  obtain ⟨level, hlevel, hlevelLater⟩ := rawWave_eq_map_phasePos c htype
  rw [hlevelLater, phasePos_add_period hlater, hlevel]

/-! ## Ramp -/

theorem rawRamp_of_duration_eq_zero {r : Slot} (h : r.duration = 0) : rawRamp r = none :=
  if_pos (unsigned_eq_zero_iff.mpr h)

/-- R126: the sum, brought over the duration as the one denominator. -/
theorem rawRamp_eq {r : Slot} (h : r.duration ≠ 0) :
    rawRamp r = some (Int.tdiv (r.startMagnitude.toInt * r.duration.toNat
      + r.elapsedTime.toNat * (r.endMagnitude.toInt - r.startMagnitude.toInt)) r.duration.toNat) := by
  have hpos := unsigned_pos h
  have hne : (unsigned r.duration : Rat) ≠ 0 := by exact_mod_cast hpos.ne'
  have hsum : (signed r.startMagnitude : Rat)
        + (unsigned r.elapsedTime * (signed r.endMagnitude - signed r.startMagnitude) : Int)
          / (unsigned r.duration : Rat)
      = (signed r.startMagnitude * unsigned r.duration
          + unsigned r.elapsedTime * (signed r.endMagnitude - signed r.startMagnitude) : Int)
        / (unsigned r.duration : Rat) := by
    push_cast
    rw [add_div, mul_div_cancel_right₀ _ hne]
  calc rawRamp r = some (trunc _) := if_neg hpos.ne'
    _ = _ := by rw [hsum, trunc_div _ hpos]; rfl

/-- Settles O49: a Ramp's one truncation is of an integer over the duration. -/
theorem rampIsOneIntegerDivision : Obligations.RampIsOneIntegerDivision :=
  ⟨fun _ => rawRamp_eq, fun c _ htype hduration => (rawWave_ramp c htype).trans (rawRamp_eq hduration)⟩

end Sys2Proof.Machine
end

section
/-! PROOFS. The envelope and the value of the waveform engine (spec/42_waveform_engine.md R118 to R123), and where the
engines give 0 (R119; spec/43_condition_engine.md R134, R141). -/

namespace Sys2Proof.Machine

/-! ## The envelope -/

/-- R122: past the start of the fade window. -/
abbrev Slot.InFadeWindow (r : Slot) : Prop := unsigned r.duration - unsigned r.fadeTime < unsigned r.elapsedTime

/-- The shaped magnitude (R121, R122), where it is not Degenerate. -/
def shapedLevel (r : Slot) : Int :=
  if r.InFadeWindow then
    scaledFade r + tdiv ((scaledMagnitude r - scaledFade r) * (unsigned r.duration - unsigned r.elapsedTime))
      (unsigned r.fadeTime)
  else attackShaped r

theorem shapedLevel_of_inFadeWindow {r : Slot} (h : r.InFadeWindow) :
    shapedLevel r = scaledFade r
      + tdiv ((scaledMagnitude r - scaledFade r) * (unsigned r.duration - unsigned r.elapsedTime))
          (unsigned r.fadeTime) :=
  if_pos h

theorem shapedLevel_of_not_inFadeWindow {r : Slot} (h : ¬ r.InFadeWindow) : shapedLevel r = attackShaped r := if_neg h

/-- R122: the shaped magnitude is Degenerate within a fade window of no length, and there alone. -/
theorem shapedMagnitude_eq (r : Slot) :
    shapedMagnitude r = if r.InFadeWindow ∧ r.fadeTime = 0 then none else some (shapedLevel r) := by
  unfold shapedMagnitude
  by_cases hwindow : r.InFadeWindow
  · rw [if_pos hwindow, shapedLevel_of_inFadeWindow hwindow]
    by_cases hfade : r.fadeTime = 0
    · rw [if_pos (unsigned_eq_zero_iff.mpr hfade), if_pos ⟨hwindow, hfade⟩]
    · rw [if_neg (mt unsigned_eq_zero_iff.mp hfade), if_neg fun h => hfade h.2]
  · rw [if_neg hwindow, shapedLevel_of_not_inFadeWindow hwindow, if_neg fun h => hwindow h.1]

/-- R120: with a gain of 0 every level is 0. -/
theorem gainScaled_of_gain_eq_zero {r : Slot} (h : r.gain = 0) (level : Int) : gainScaled r level = 0 := by
  simp [gainScaled, h, tdiv]

/-- R120: with a gain of 255 a level is as stored. -/
theorem gainScaled_of_gain_eq_255 {r : Slot} (h : r.gain = 255) (level : Int) : gainScaled r level = level := by
  unfold gainScaled
  rw [h]
  exact Int.mul_tdiv_cancel level (by decide)

/-- R132 (P3): with a gain of 0 the shaped magnitude is 0, in each branch. -/
theorem shapedLevel_of_gain_eq_zero {r : Slot} (h : r.gain = 0) : shapedLevel r = 0 := by
  have hlevel := gainScaled_of_gain_eq_zero h
  unfold shapedLevel attackShaped scaledFade scaledAttack scaledMagnitude
  simp [hlevel, tdiv]

/-- R132 (P2): at full gain and outside both windows the shaped magnitude is the stored one. -/
theorem shapedLevel_of_full_gain {r : Slot} (hgain : r.gain = 255) (hattack : r.attackTime = 0)
    (hfade : ¬ r.InFadeWindow) : shapedLevel r = r.magnitude.toInt := by
  have hnoAttack : ¬ unsigned r.elapsedTime < unsigned r.attackTime := by
    rw [hattack]; exact Int.not_lt.mpr (Int.natCast_nonneg _)
  rw [shapedLevel_of_not_inFadeWindow hfade, attackShaped, if_neg hnoAttack]
  exact gainScaled_of_gain_eq_255 hgain _

/-! ## The value of the engine -/

section
variable (c : Config) {r : Slot}

/-- R118, R123: the value of a raw value, where no guard of the envelope but the fade's can hold. -/
theorem wave_eq {raw : Int} (hraw : rawWave c r = some raw) (hmagnitude : r.magnitude ≠ 0) :
    wave c r = if r.InFadeWindow ∧ r.fadeTime = 0 then 0 else Int.tdiv (shapedLevel r * raw) r.magnitude.toInt := by
  unfold wave envelope
  rw [hraw, Option.bind_some, if_neg (mt signed_eq_zero_iff.mp hmagnitude), shapedMagnitude_eq]
  split <;> rfl

/-- R119: a value other than 0 has a raw value and passes both guards of the envelope. -/
theorem exists_raw_of_wave_ne_zero (h : wave c r ≠ 0) :
    ∃ raw, rawWave c r = some raw ∧ r.magnitude ≠ 0 ∧ ¬ (r.InFadeWindow ∧ r.fadeTime = 0)
      ∧ wave c r = Int.tdiv (shapedLevel r * raw) r.magnitude.toInt := by
  cases hraw : rawWave c r with
  | none => exact absurd (by unfold wave; rw [hraw]; rfl) h
  | some raw =>
    have hmagnitude : r.magnitude ≠ 0 := by
      intro h0
      refine h ?_
      unfold wave envelope
      rw [hraw, Option.bind_some, if_pos (signed_eq_zero_iff.mpr h0)]
      rfl
    have hwave := wave_eq c hraw hmagnitude
    have hfade : ¬ (r.InFadeWindow ∧ r.fadeTime = 0) := fun hfade => h (by rw [hwave, if_pos hfade])
    exact ⟨raw, rfl, hmagnitude, hfade, by rw [hwave, if_neg hfade]⟩

theorem wave_of_raw_eq_none (h : rawWave c r = none) : wave c r = 0 := by
  unfold wave; rw [h]; rfl

theorem wave_of_magnitude_eq_zero (h : r.magnitude = 0) : wave c r = 0 := by
  by_contra hne
  obtain ⟨-, -, hmagnitude, -⟩ := exists_raw_of_wave_ne_zero c hne
  exact hmagnitude h

theorem wave_of_fade_degenerate (hwindow : r.InFadeWindow) (hfade : r.fadeTime = 0) : wave c r = 0 := by
  by_contra hne
  obtain ⟨-, -, -, hguard, -⟩ := exists_raw_of_wave_ne_zero c hne
  exact hguard ⟨hwindow, hfade⟩

theorem wave_of_gain_eq_zero (h : r.gain = 0) : wave c r = 0 := by
  by_contra hne
  obtain ⟨raw, -, -, -, hwave⟩ := exists_raw_of_wave_ne_zero c hne
  refine hne ?_
  rw [hwave, shapedLevel_of_gain_eq_zero h, zero_mul, Int.zero_tdiv]

end

/-- Settles O42: outside the fade window the value is `tdiv(magnitude × raw, magnitude)`. -/
theorem fullGainIsTransparent : Obligations.FullGainIsTransparent := by
  intro c r raw hgain hattack hmagnitude htime hraw
  have hfade : ¬ r.InFadeWindow := by unfold Slot.InFadeWindow unsigned; omega
  rw [wave_eq c hraw hmagnitude, if_neg fun h => hfade h.1, shapedLevel_of_full_gain hgain hattack hfade]
  exact Int.mul_tdiv_cancel_left raw (mt signed_eq_zero_iff.mp hmagnitude)

/-- Settles O45: `shapedLevel` is the shaped magnitude of the statement; a Constant's raw value cancels the divisor. -/
theorem constantFollowsTheEnvelope : Obligations.ConstantFollowsTheEnvelope := by
  have hconstant : ∀ (c : Config) (r : Slot), r.effectType = 1 → rawWave c r = some r.magnitude.toInt :=
    fun c _ => rawWave_constant c
  refine ⟨?_, hconstant, ?_⟩
  · rintro c r raw _ _ _ _ _ _ hraw hmagnitude rfl rfl rfl rfl rfl rfl
    exact wave_eq c hraw hmagnitude
  · rintro c r _ _ _ _ _ htype hmagnitude rfl rfl rfl rfl rfl
    have hcancel : Int.tdiv (shapedLevel r * r.magnitude.toInt) r.magnitude.toInt = shapedLevel r :=
      Int.mul_tdiv_cancel _ (mt signed_eq_zero_iff.mp hmagnitude)
    rw [wave_eq c (hconstant c r htype) hmagnitude, hcancel, ite_and]
    by_cases hwindow : r.InFadeWindow
    · rw [if_pos hwindow, shapedLevel_of_inFadeWindow hwindow]
      exact (if_pos hwindow).symm
    · rw [if_neg hwindow, shapedLevel_of_not_inFadeWindow hwindow]
      exact (if_neg hwindow).symm

/-! ## Where the engines give 0 -/

theorem condN_of_gain_eq_zero {r : Slot} (h : r.gain = 0) (a : Axis) (n : Rat) : condN r a n = 0 := by
  unfold condN
  rw [h]
  simp [trunc]

theorem cond_of_gain_eq_zero {r : Slot} (h : r.gain = 0) (a : Axis) (x xmax : Sample) : cond r a x xmax = 0 := by
  unfold cond
  rw [condN_of_gain_eq_zero h, ite_self]

/-- R139, R141 (P2): every inertia rule gives a multiple of a condition-law result. -/
theorem inertiaForce_of_gain_eq_zero {r : Slot} (h : r.gain = 0) (rule : InertiaRule) (a : Axis) (smp : SampleRecord) :
    inertiaForce rule r a smp = 0 := by
  unfold inertiaForce
  simp only [condN_of_gain_eq_zero h, mul_zero, ite_self]

/-- R134: a sample maximum of 0 yields 0. -/
@[simp] theorem cond_max_zero (r : Slot) (a : Axis) (x : Sample) : cond r a x 0 = 0 := rfl

/-- R160: an acceleration maximum of 0 yields 0, whatever the rule. -/
theorem inertiaForce_of_max_eq_zero {smp : SampleRecord} (h : smp.inertiaMax = 0) (rule : InertiaRule) (r : Slot)
    (a : Axis) : inertiaForce rule r a smp = 0 :=
  if_pos (by rw [h]; rfl)

theorem engineForce_of_gain_eq_zero {r : Slot} (h : r.gain = 0) (c : Config) (a : Axis) (smp : SampleRecord)
    (t : EffectType) : engineForce c r a smp t = 0 := by
  cases t with
  | constant | ramp | square | sine | triangle | sawtoothDown | sawtoothUp => exact wave_of_gain_eq_zero c h
  | spring | damper | friction => exact cond_of_gain_eq_zero h a _ _
  | inertia => exact inertiaForce_of_gain_eq_zero h c.inertia a smp
  | custom | untyped => rfl

/-- Settles O43: every contribution is a multiple of an engine's value. -/
theorem zeroGainIsSilent : Obligations.ZeroGainIsSilent := by
  intro c r a smp h
  rw [contribution_eq_engineForce, engineForce_of_gain_eq_zero h, zero_mul]

/-! ## Sine -/

theorem sineAngle_eq (c : Config) (r : Slot) :
    sineAngle c r = if r.period = 0 then 0
      else (r.elapsedTime.toNat : Rat) / (r.period.toNat : Rat) * 2 * c.pi + (r.phase.toNat : Rat) / 36000 := by
  simp only [sineAngle, unsigned_eq_zero_iff]
  rfl

/-- R128, R11: a Sine's raw value is rounded to a nearest integer, and a tie away from zero. -/
theorem rawWave_sine_rounds (c : Config) {r : Slot} (htype : r.effectType = 4) {q : Rat}
    (hq : q = c.sin (sineAngle c r) * (r.magnitude.toInt : Rat)) :
    ∃ v : Int, rawWave c r = some (2 * r.offset.toInt + v)
      ∧ |(v : Rat) - q| ≤ 1 / 2 ∧ (|(v : Rat) - q| = 1 / 2 → |q| < |(v : Rat)|) := by
  refine ⟨roundHalfAway q, ?_, roundHalfAway_near q, roundHalfAway_tie q⟩
  rw [rawWave_sine c htype, hq]
  rfl

/-- Settles O44: the guards of R119 one by one, then Sine. -/
theorem degenerateParametersContributeZero : Obligations.DegenerateParametersContributeZero := by
  intro c r a smp
  refine ⟨wave_of_magnitude_eq_zero c, fun htype hduration => ?_, fun htype hperiod => ?_, fun hfade hpast => ?_,
    fun htype hwave => ?_, fun htype hmax => ?_, fun htype hmax => ?_, fun htype hmax => ?_, fun htype hmax => ?_,
    fun angle q htype hangle hq => ?_⟩
  · exact wave_of_raw_eq_none c ((rawWave_ramp c htype).trans (rawRamp_of_duration_eq_zero hduration))
  · exact wave_of_raw_eq_none c (rawWave_of_period_eq_zero c htype hperiod)
  · have hwindow : r.InFadeWindow := by unfold Slot.InFadeWindow unsigned; omega
    exact wave_of_fade_degenerate c hwindow hfade
  · rw [contribution_waveform c a smp htype, hwave, zero_mul]
  · rw [contribution_spring c a smp htype, hmax, cond_max_zero, zero_mul]
  · rw [contribution_damper c a smp htype, hmax, cond_max_zero, zero_mul]
  · rw [contribution_inertia c a smp htype, inertiaForce_of_max_eq_zero hmax, zero_mul]
  · rw [contribution_friction c a smp htype, hmax, cond_max_zero, zero_mul]
  · rw [← sineAngle_eq] at hangle
    exact rawWave_sine_rounds c htype (hangle ▸ hq)

end Sys2Proof.Machine
end

section
/-! PROOFS. The condition engine (spec/43_condition_engine.md): the block an axis reads (R135), the three-zone law
brought over one denominator (R136), what the condition types multiply a result of it by (R133, R139, R147), and the
default inertia rule (R139). -/

namespace Sys2Proof.Machine

/-! ## The block of an axis -/

theorem Slot.conditionBlock_axis0 (r : Slot) : r.conditionBlock .axis0 = r.cond0 := ite_self _

theorem Slot.conditionBlock_of_count_le_one {r : Slot} (h : r.conditionBlocksCount.toNat ≤ 1) (a : Axis) :
    r.conditionBlock a = r.cond0 :=
  if_neg (Nat.not_lt.mpr h)

theorem Slot.conditionBlock_axis1_of_one_lt_count {r : Slot} (h : 1 < r.conditionBlocksCount.toNat) :
    r.conditionBlock .axis1 = r.cond1 :=
  if_pos h

theorem Slot.conditionBlock_eq_cond0_or_cond1 (r : Slot) (a : Axis) :
    r.conditionBlock a = r.cond0 ∨ r.conditionBlock a = r.cond1 := by
  by_cases h : 1 < r.conditionBlocksCount.toNat
  · cases a with
    | axis0 => exact .inl r.conditionBlock_axis0
    | axis1 => exact .inr (r.conditionBlock_axis1_of_one_lt_count h)
  · exact .inl (r.conditionBlock_of_count_le_one (Nat.not_lt.mp h) a)

theorem Slot.conditionBlock_congr {r r' : Slot} (hcount : r'.conditionBlocksCount = r.conditionBlocksCount)
    (hcond0 : r'.cond0 = r.cond0) (hcond1 : r'.cond1 = r.cond1) (a : Axis) :
    r'.conditionBlock a = r.conditionBlock a := by
  unfold Slot.conditionBlock
  rw [hcount, hcond0, hcond1]

/-! ## The three-zone law -/

/-- R136 (b): the dead zone holds both its ends. -/
theorem zoneForce_of_mem_deadZone {b : ConditionBlock} {n : Rat}
    (hlo : ((signed b.cpOffset - unsigned b.deadBand : Int) : Rat) ≤ n)
    (hhi : n ≤ ((signed b.cpOffset + unsigned b.deadBand : Int) : Rat)) : zoneForce b n = 0 := by
  unfold zoneForce
  rw [if_neg hlo.not_gt, if_neg hhi.not_gt]

/-- R141 (P3): outside the dead zone, which is the point 0, both coefficients are 0. -/
theorem zoneForce_zero (n : Rat) : zoneForce .zero n = 0 := by
  have hsigned : signed 0#16 = 0 := rfl
  have hunsigned : unsigned 0#16 = 0 := rfl
  simp [zoneForce, ConditionBlock.zero, hsigned, hunsigned]

theorem condN_of_zoneForce_eq_zero {r : Slot} {a : Axis} {n : Rat} (h : zoneForce (r.conditionBlock a) n = 0) :
    condN r a n = 0 := by
  unfold condN
  rw [h]
  simp [trunc]

theorem condN_of_zero_blocks {r : Slot} (hcond0 : r.cond0 = .zero) (hcond1 : r.cond1 = .zero) (a : Axis) (n : Rat) :
    condN r a n = 0 := by
  refine condN_of_zoneForce_eq_zero ?_
  rcases r.conditionBlock_eq_cond0_or_cond1 a with h | h
  · rw [h, hcond0, zoneForce_zero]
  · rw [h, hcond1, zoneForce_zero]

/-- R133: the law reads the gain and the block of the axis alone. -/
theorem condN_congr {r r' : Slot} {a a' : Axis} (hblock : r'.conditionBlock a' = r.conditionBlock a)
    (hgain : r'.gain = r.gain) (n : Rat) : condN r' a' n = condN r a n := by
  unfold condN
  rw [hblock, hgain]

/-! ## The law over integers -/

/-- The zone force at `x / m`, as its numerator over `10000 × m` (R136). -/
def zoneNumerator (b : ConditionBlock) (x m : Int) : Int :=
  let lo := signed b.cpOffset - unsigned b.deadBand
  let hi := signed b.cpOffset + unsigned b.deadBand
  if x < lo * m then
    max ((10000 * x - lo * m) * signed b.negativeCoefficient) (-(unsigned b.negativeSaturation * (10000 * m)))
  else if hi * m < x then
    min ((10000 * x - hi * m) * signed b.positiveCoefficient) (unsigned b.positiveSaturation * (10000 * m))
  else 0

/-- The product of one zone, over the common denominator. -/
theorem zone_product_eq_div (x edge coefficient : Int) {m : Int} (hm : 0 < m) :
    ((x : Rat) / m - (edge : Rat) / 10000) * coefficient
      = (((10000 * x - edge * m) * coefficient : Int) : Rat) / ((10000 * m : Int) : Rat) := by
  have hmq : (m : Rat) ≠ 0 := by exact_mod_cast hm.ne'
  push_cast
  field_simp

/-- The same for the bound of a zone. -/
theorem saturation_eq_div (saturation : Int) {m : Int} (hm : 0 < m) :
    (saturation : Rat) = ((saturation * (10000 * m) : Int) : Rat) / ((10000 * m : Int) : Rat) := by
  have hmq : ((10000 * m : Int) : Rat) ≠ 0 := by exact_mod_cast (by omega : 10000 * m ≠ 0)
  rw [Int.cast_mul, mul_div_cancel_right₀ _ hmq]

/-- A positive denominator passes through the comparisons and the clamps. -/
theorem zoneForce_div (b : ConditionBlock) (x : Int) {m : Int} (hm : 0 < m) :
    zoneForce b ((x : Rat) / m) = (zoneNumerator b x m : Rat) / ((10000 * m : Int) : Rat) := by
  have hmq : (0 : Rat) < m := by exact_mod_cast hm
  have hden : (0 : Rat) ≤ ((10000 * m : Int) : Rat) := by exact_mod_cast (by omega : 0 ≤ 10000 * m)
  have hlt : ∀ v : Int, (x : Rat) / m < v ↔ x < v * m := fun v => by rw [div_lt_iff₀ hmq]; norm_cast
  have hgt : ∀ v : Int, (v : Rat) < (x : Rat) / m ↔ v * m < x := fun v => by rw [lt_div_iff₀ hmq]; norm_cast
  unfold zoneForce zoneNumerator
  simp only [hlt, hgt]
  split_ifs with hbelow habove
  · rw [zone_product_eq_div _ _ _ hm, saturation_eq_div (unsigned b.negativeSaturation) hm, ← neg_div,
      max_div_div_right hden]
    norm_cast
  · rw [zone_product_eq_div _ _ _ hm, saturation_eq_div (unsigned b.positiveSaturation) hm, min_div_div_right hden]
    norm_cast
  · simp

theorem integerCond_of_pos (r : Slot) (a : Axis) (x : Int) {m : Int} (hm : 0 < m) :
    integerCond r a x m
      = tdiv (-(zoneNumerator (r.conditionBlock a) x m) * (r.gain.toNat : Int)) (255 * (10000 * m)) := by
  have hsign : ¬ m < 0 := hm.not_gt
  simp only [integerCond, hsign, if_false]
  rfl

/-- R134: a negative maximum flips the sign of the sample. -/
theorem integerCond_of_neg (r : Slot) (a : Axis) (x : Int) {m : Int} (hm : m < 0) :
    integerCond r a x m = integerCond r a (-x) (-m) := by
  have hsign : ¬ -m < 0 := by omega
  simp only [integerCond, hm, hsign, if_true, if_false]

/-- R136: at a quotient with a positive denominator the law's one truncation is one integer division. -/
theorem condN_div (r : Slot) (a : Axis) (x : Int) {m : Int} (hm : 0 < m) :
    condN r a ((x : Rat) / m) = integerCond r a x m := by
  have hscaled : -(zoneForce (r.conditionBlock a) ((x : Rat) / m)) * (r.gain.toNat : Rat) / 255
      = ((-(zoneNumerator (r.conditionBlock a) x m) * (r.gain.toNat : Int) : Int) : Rat)
        / ((255 * (10000 * m) : Int) : Rat) := by
    rw [zoneForce_div _ _ hm]
    push_cast
    ring
  rw [condN, hscaled, trunc_div _ (by omega), integerCond_of_pos r a x hm]
  rfl

/-- Settles O50: a negative maximum is moved to the sample, and the quotient has a positive denominator. -/
theorem conditionLawOverIntegers : Obligations.ConditionLawOverIntegers := by
  intro r a x xmax hmax
  rw [cond, if_neg hmax]
  rcases lt_or_gt_of_ne hmax with hneg | hpos
  · have hquotient : (x.toInt : Rat) / (xmax.toInt : Rat) = ((-x.toInt : Int) : Rat) / ((-xmax.toInt : Int) : Rat) := by
      rw [Int.cast_neg, Int.cast_neg, neg_div_neg_eq]
    rw [hquotient, condN_div r a _ (by omega), ← integerCond_of_neg r a _ hneg]
  · exact condN_div r a _ hpos

/-! ## Inertia -/

/-- The sign of the acceleration as an inertia rule reads it (R139). -/
def accelerationSign (rule : InertiaRule) (a : Axis) (smp : SampleRecord) : SignType :=
  if rule.normalised a then signOf (smp.inertiaAcc.toInt * smp.inertiaMax.toInt) else signOf smp.inertiaAcc.toInt

/-- The sign that an inertia rule gives to the law's result (R139). -/
def inertiaFactor (rule : InertiaRule) (a : Axis) (smp : SampleRecord) : SignType :=
  rule.sign a (accelerationSign rule a smp) (signOf (rule.proxy a smp))

/-- The normalised acceleration that an inertia rule applies the law to (R139). -/
def inertiaSample (rule : InertiaRule) (a : Axis) (smp : SampleRecord) : Rat :=
  if rule.absolute a (accelerationSign rule a smp) (signOf (rule.proxy a smp)) then
    |(smp.inertiaAcc.toInt : Rat) / (smp.inertiaMax.toInt : Rat)|
  else (smp.inertiaAcc.toInt : Rat) / (smp.inertiaMax.toInt : Rat)

/-- R139: neither the sign nor the sample depends on the record. -/
theorem inertiaForce_eq (rule : InertiaRule) (r : Slot) (a : Axis) (smp : SampleRecord) :
    inertiaForce rule r a smp
      = if smp.inertiaMax.toInt = 0 then 0
        else (inertiaFactor rule a smp : Int) * condN r a (inertiaSample rule a smp) :=
  rfl

theorem inertiaSample_default (a : Axis) (smp : SampleRecord) :
    inertiaSample defaultInertia a smp = |(smp.inertiaAcc.toInt : Rat) / (smp.inertiaMax.toInt : Rat)| :=
  rfl

/-- The default rule opposes the sign of the friction position where the acceleration is negative. -/
theorem inertiaFactor_default_of_neg {smp : SampleRecord} (h : smp.inertiaAcc.toInt < 0) (a : Axis) :
    inertiaFactor defaultInertia a smp = -signOf smp.frictionPos.toInt :=
  if_pos (signOf_of_neg h)

theorem inertiaFactor_default_of_nonneg {smp : SampleRecord} (h : 0 ≤ smp.inertiaAcc.toInt) (a : Axis) :
    inertiaFactor defaultInertia a smp = 0 := by
  have hsign : signOf smp.inertiaAcc.toInt ≠ -1 := by
    rcases h.eq_or_lt with hzero | hpos
    · rw [← hzero]; decide
    · rw [signOf_of_pos hpos]; decide
  exact if_neg hsign

/-- R139: what every inertia rule keeps. -/
theorem keepsConditionLaw_inertiaForce (rule : InertiaRule) : KeepsConditionLaw (inertiaForce rule) := by
  refine ⟨fun a smp => inertiaFactor rule a smp, inertiaSample rule, fun a smp => ?_, fun a smp => ?_,
    inertiaForce_eq rule⟩
  · exact (SignType.trichotomy (inertiaFactor rule a smp)).imp (congrArg SignType.cast)
      (Or.imp (congrArg SignType.cast) (congrArg SignType.cast))
  · exact (ite_eq_or_eq _ _ _).symm

/-- Settles O52: the default rule in each case of the two signs, and every rule by its sign and its sample. -/
theorem defaultInertiaRule : Obligations.DefaultInertiaRule := by
  refine ⟨fun r a smp => ?_, keepsConditionLaw_inertiaForce⟩
  rw [inertiaForce_eq, inertiaSample_default]
  congr 1
  by_cases hacc : smp.inertiaAcc.toInt < 0
  · rw [inertiaFactor_default_of_neg hacc]
    rcases lt_trichotomy smp.frictionPos.toInt 0 with hneg | hzero | hpos
    · simp [hacc, hneg]
    · simp [hzero]
    · simp [hacc, hpos, hpos.not_gt]
  · rw [inertiaFactor_default_of_nonneg (Int.not_lt.mp hacc)]
    simp [hacc]

/-! ## The contribution of a condition type -/

theorem exists_mul_condN_of_cond (a : Axis) (x xmax : Sample) :
    ∃ (factor : Int) (n : Rat), ∀ r : Slot, cond r a x xmax = factor * condN r a n := by
  by_cases hmax : xmax.toInt = 0
  · exact ⟨0, 0, fun r => by rw [cond, if_pos hmax, zero_mul]⟩
  · exact ⟨1, _, fun r => by rw [cond, if_neg hmax, one_mul]⟩

theorem exists_mul_condN_of_inertiaForce (rule : InertiaRule) (a : Axis) (smp : SampleRecord) :
    ∃ (factor : Int) (n : Rat), ∀ r : Slot, inertiaForce rule r a smp = factor * condN r a n := by
  by_cases hmax : smp.inertiaMax.toInt = 0
  · exact ⟨0, 0, fun r => by rw [inertiaForce_eq, if_pos hmax, zero_mul]⟩
  · exact ⟨inertiaFactor rule a smp, inertiaSample rule a smp, fun r => by rw [inertiaForce_eq, if_neg hmax]⟩

/-- R133, R147: a condition type contributes a multiple of one result of the law; the multiple and the point the law is
taken at come from the type, the axis and its samples. -/
theorem exists_mul_condN_of_contribution (c : Config) {code : Byte} (hlow : 8 ≤ code.toNat) (hhigh : code.toNat ≤ 11)
    (a : Axis) (smp : SampleRecord) :
    ∃ (factor : Int) (n : Rat), ∀ r : Slot, r.effectType = code → contribution c r a smp = factor * condN r a n := by
  have hcode : code = 8 ∨ code = 9 ∨ code = 10 ∨ code = 11 := by bv_omega
  rcases hcode with rfl | rfl | rfl | rfl
  · obtain ⟨factor, n, hforce⟩ := exists_mul_condN_of_cond a smp.springPos smp.springMax
    exact ⟨factor * (c.typeGain .spring).toNat, n, fun r htype => by
      rw [contribution_spring c a smp htype, hforce, mul_right_comm]⟩
  · obtain ⟨factor, n, hforce⟩ := exists_mul_condN_of_cond a smp.damperVel smp.damperMax
    exact ⟨factor * (c.typeGain .damper).toNat, n, fun r htype => by
      rw [contribution_damper c a smp htype, hforce, mul_right_comm]⟩
  · obtain ⟨factor, n, hforce⟩ := exists_mul_condN_of_inertiaForce c.inertia a smp
    exact ⟨factor * (c.typeGain .inertia).toNat, n, fun r htype => by
      rw [contribution_inertia c a smp htype, hforce, mul_right_comm]⟩
  · obtain ⟨factor, n, hforce⟩ := exists_mul_condN_of_cond a smp.frictionPos smp.frictionMax
    exact ⟨factor * (c.typeGain .friction).toNat, n, fun r htype => by
      rw [contribution_friction c a smp htype, hforce, mul_right_comm]⟩

/-- Settles O51: the selection, the zeros of the law, and what the law and the contributions depend on. -/
theorem conditionLawEdgeCases : Obligations.ConditionLawEdgeCases := by
  refine ⟨fun r => ⟨fun hcount => ?_, fun hcount => ?_⟩, fun r a n hlo hhi => ?_, fun r a n hcond0 hcond1 => ?_,
    fun c r a smp hlow hhigh hcond0 hcond1 => ?_, fun r n hcount => ?_, cond_max_zero,
    fun c r r' a smp hlow hhigh htype hgain hcount hcond0 hcond1 => ?_⟩
  · exact ⟨r.conditionBlock_axis0, r.conditionBlock_of_count_le_one hcount .axis1⟩
  · exact ⟨r.conditionBlock_axis0, r.conditionBlock_axis1_of_one_lt_count hcount⟩
  · exact condN_of_zoneForce_eq_zero (zoneForce_of_mem_deadZone hlo hhi)
  · exact condN_of_zero_blocks hcond0 hcond1 a n
  · obtain ⟨factor, n, hcontribution⟩ := exists_mul_condN_of_contribution c hlow hhigh a smp
    rw [hcontribution r rfl, condN_of_zero_blocks hcond0 hcond1, mul_zero]
  · have hshared := r.conditionBlock_of_count_le_one hcount
    exact condN_congr (by rw [hshared, hshared]) rfl n
  · obtain ⟨factor, n, hcontribution⟩ := exists_mul_condN_of_contribution c hlow hhigh a smp
    have hblock := Slot.conditionBlock_congr hcount hcond0 hcond1 a
    rw [hcontribution r rfl, hcontribution r' htype, condN_congr hblock hgain]

end Sys2Proof.Machine
end

section
/-! PROOFS. The output stage of a tick (spec/44_force_reducer.md R149, R150): its value, its range and its
monotonicity, for every implementation. -/

namespace Sys2Proof.Machine

/-! ## The clamp -/

theorem clamp_of_le {v lo hi : Int} (hv : v ≤ lo) (hrange : lo ≤ hi) : clamp v lo hi = lo := by
  unfold clamp
  split
  · rfl
  · rw [if_neg (by omega)]; omega

theorem clamp_of_ge {v lo : Int} (hi : Int) (hv : lo ≤ v) : clamp v lo hi = min hi v := by
  unfold clamp
  rw [if_neg (by omega)]
  split <;> omega

/-! ## Rescale -/

section
variable (c : Config)

theorem forceWide_pos : 0 < c.forceWide := by unfold Config.forceWide; omega

/-- R150: the linear map before its clamp, with the common factor 2 of its fraction taken out. -/
theorem rescale_eq_clamp (g : Int) :
    rescale c g = clamp (Int.tdiv ((g + c.forceWide) * 255) c.forceWide - 255) (-255) 255 := by
  have hfactor : (g + c.forceWide) * 2 * 255 = 2 * ((g + c.forceWide) * 255) := by ring
  simp only [rescale, tdiv, Config.forceOut]
  rw [hfactor, Int.mul_tdiv_mul_of_pos _ _ (by decide)]

/-- R150: below `−W` the quotient is not positive, so the clamp answers its lower bound. -/
theorem rescale_of_lt {g : Int} (h : g < -c.forceWide) : rescale c g = -255 := by
  have hquotient : Int.tdiv ((g + c.forceWide) * 255) c.forceWide ≤ 0 := by
    simpa using Int.tdiv_le_tdiv (forceWide_pos c) (show (g + c.forceWide) * 255 ≤ 0 by omega)
  rw [rescale_eq_clamp, clamp_of_le (by omega) (by decide)]

/-- R150: from `−W` on the numerator is not negative, so the division is a floor and the shift by `R` passes through
it. -/
theorem rescale_of_ge {g : Int} (h : -c.forceWide ≤ g) : rescale c g = min 255 (g * 255 / c.forceWide) := by
  have hwide := forceWide_pos c
  have hnumerator : 0 ≤ (g + c.forceWide) * 255 := by omega
  have hquotient : Int.tdiv ((g + c.forceWide) * 255) c.forceWide = g * 255 / c.forceWide + 255 := by
    rw [Int.tdiv_eq_ediv_of_nonneg hnumerator, ← Int.add_mul_ediv_right _ _ hwide.ne']
    congr 1
    ring
  have hnonneg := Int.tdiv_nonneg hnumerator hwide.le
  rw [rescale_eq_clamp, clamp_of_ge _ (by omega), hquotient, Int.add_sub_cancel]

theorem rescale_eq (g : Int) :
    rescale c g = if g < -c.forceWide then -255 else min 255 (Int.fdiv (g * 255) c.forceWide) := by
  rw [Int.fdiv_eq_ediv_of_nonneg _ (forceWide_pos c).le]
  split
  case isTrue h => exact rescale_of_lt c h
  case isFalse h => exact rescale_of_ge c (Int.not_lt.mp h)

@[simp] theorem rescale_zero : rescale c 0 = 0 := by
  rw [rescale_of_ge c (by have := forceWide_pos c; omega), zero_mul, Int.zero_ediv]
  rfl

theorem rescale_mem (g : Int) : -255 ≤ rescale c g ∧ rescale c g ≤ 255 := clamp_mem _ (by decide)

theorem rescale_mono : Monotone (rescale c) := by
  intro g h hle
  by_cases hlow : g < -c.forceWide
  · rw [rescale_of_lt c hlow]
    exact (rescale_mem c h).1
  · rw [rescale_of_ge c (by omega), rescale_of_ge c (by omega)]
    exact min_le_min_left _ (Int.ediv_le_ediv (forceWide_pos c) (by omega))

/-! ## The force of an axis sum -/

theorem totalGained_mono : Monotone (totalGained c) := fun _ _ hle =>
  Int.tdiv_le_tdiv (by decide) (Int.mul_le_mul_of_nonneg_right hle (Int.natCast_nonneg _))

theorem outputForce_mono : Monotone (outputForce c) := (rescale_mono c).comp (totalGained_mono c)

theorem outputForce_mem (acc : Int) : -255 ≤ outputForce c acc ∧ outputForce c acc ≤ 255 := rescale_mem c _

@[simp] theorem outputForce_zero : outputForce c 0 = 0 := by simp [outputForce, totalGained, tdiv]

/-- R64: the `s16` that carries a force has its value. -/
theorem forceWord_outputForce_toInt (acc : Int) : (forceWord (outputForce c acc)).toInt = outputForce c acc :=
  forceWord_toInt (outputForce_mem c acc).1 (outputForce_mem c acc).2

end

/-- Settles O53: the clamped floor of R150, and its monotonicity after that of R149's division. -/
theorem rescaleIsAClampedFloor : Obligations.RescaleIsAClampedFloor := by
  refine ⟨?_, rescale_eq, fun c _ _ hle => rescale_mono c hle, fun c _ _ hle => outputForce_mono c hle⟩
  rintro c acc _ rfl
  exact rescale_eq c _

end Sys2Proof.Machine
end

section
/-! PROOFS. TICK (spec/44_force_reducer.md R142 to R148, R151): which records it serves, what an axis sum is made of,
and what its answer and the state it leaves have in common from tick to tick. -/

namespace Sys2Proof.Machine

/-! ## One record -/

/-- R145, by bits and fields. -/
theorem Slot.visited_iff (r : Slot) :
    r.visited = true ↔ r.state.getLsbD 0 = true ∧ r.state.getLsbD 1 = true
      ∧ (r.elapsedTime.toNat ≤ r.duration.toNat ∨ r.duration = 0x7FFF) := by
  simp [Slot.visited, Slot.allocated, Slot.playing, Config.durationInfinite, and_assoc]

theorem Slot.ticked_of_visited {r : Slot} (h : r.visited = true) (now : Stamp) :
    r.ticked now = { r with elapsedTime := elapsedSince now r.startTime } := if_pos h

theorem Slot.ticked_of_not_visited {r : Slot} (h : r.visited = false) (now : Stamp) : r.ticked now = r :=
  if_neg (by simp [h])

/-- R148: the elapsed time is assigned a function of the clock, so a second tick at the same clock changes nothing. -/
@[simp] theorem Slot.ticked_ticked (now : Stamp) (r : Slot) : (r.ticked now).ticked now = r.ticked now := by
  cases hfirst : r.visited with
  | false => rw [Slot.ticked_of_not_visited hfirst, Slot.ticked_of_not_visited hfirst]
  | true =>
    cases hsecond : (r.ticked now).visited with
    | false => exact Slot.ticked_of_not_visited hsecond now
    | true => rw [Slot.ticked_of_visited hsecond, Slot.ticked_of_visited hfirst]

/-- R148: the low 16 bits of the 64-bit difference. -/
theorem elapsedSince_eq_ofNat (now startTime : Stamp) :
    elapsedSince now startTime = BitVec.ofNat 16 (now - startTime).toNat :=
  (BitVec.ofNat_toNat 16 (now - startTime)).symm

/-- R145, R148: a record after a tick, by bits and fields. -/
theorem Slot.ticked_eq (now : Stamp) (r : Slot) :
    r.ticked now
      = if r.state.getLsbD 0 = true ∧ r.state.getLsbD 1 = true
          ∧ (r.elapsedTime.toNat ≤ r.duration.toNat ∨ r.duration = 0x7FFF)
        then { r with elapsedTime := BitVec.ofNat 16 (now - r.startTime).toNat } else r :=
  if_congr r.visited_iff (by rw [elapsedSince_eq_ofNat]) rfl

/-! ## Contributions -/

/-- R21: a code below the first type's or above friction's names Custom or no type. -/
theorem effectTypeOf_eq_custom_or_untyped {code : Byte} (h : code = 0 ∨ 12 ≤ code.toNat) :
    effectTypeOf code = .custom ∨ effectTypeOf code = .untyped := by
  have hne : code ≠ 1#8 ∧ code ≠ 2#8 ∧ code ≠ 3#8 ∧ code ≠ 4#8 ∧ code ≠ 5#8 ∧ code ≠ 6#8 ∧ code ≠ 7#8 ∧ code ≠ 8#8
      ∧ code ≠ 9#8 ∧ code ≠ 10#8 ∧ code ≠ 11#8 := by
    bv_omega
  by_cases hcustom : code = 12#8
  · exact .inl (by rw [hcustom]; rfl)
  · exact .inr (by simp [effectTypeOf, hne, hcustom])

section
variable (c : Config) (a : Axis) (smp : SampleRecord)

/-- R147: the row of the table that a known type code selects. -/
theorem contribution_of_effectType {r : Slot} {code : Byte} (h : r.effectType = code) :
    contribution c r a smp = engineForce c r a smp (effectTypeOf code) * (c.typeGain (effectTypeOf code)).toNat := by
  rw [contribution_eq_engineForce, h]

theorem contribution_of_no_engine {r : Slot} (h : r.effectType = 0 ∨ 12 ≤ r.effectType.toNat) :
    contribution c r a smp = 0 := by
  rw [contribution_eq_engineForce]
  rcases effectTypeOf_eq_custom_or_untyped h with htype | htype
  all_goals rw [htype]; exact zero_mul _

theorem slotShare_of_visited {r : Slot} (h : r.visited = true) : slotShare c a smp r = contribution c r a smp :=
  if_pos h

theorem slotShare_of_not_visited {r : Slot} (h : r.visited = false) : slotShare c a smp r = 0 :=
  if_neg (by simp [h])

/-- R118, R147: a record of a waveform type adds the same to both axes, whatever their samples. -/
theorem slotShare_of_waveform {r : Slot}
    (h : r.visited = true → 1 ≤ r.effectType.toNat ∧ r.effectType.toNat ≤ 7) (a' : Axis) (smp' : SampleRecord) :
    slotShare c a' smp' r = slotShare c a smp r := by
  cases hvisited : r.visited with
  | false => rw [slotShare_of_not_visited c a' smp' hvisited, slotShare_of_not_visited c a smp hvisited]
  | true =>
    rw [slotShare_of_visited c a' smp' hvisited, slotShare_of_visited c a smp hvisited,
      contribution_waveform c a' smp' (h hvisited), contribution_waveform c a smp (h hvisited)]

/-! ## Axis sums -/

theorem axisSum_of_paused {s : State} (h : s.paused = true) : axisSum c a smp s = 0 := if_pos h

theorem axisSum_of_running {s : State} (h : s.paused = false) :
    axisSum c a smp s = ((List.range' 1 14).map fun k => slotShare c a smp (s.slot k)).sum :=
  if_neg (by simp [h])

theorem map_walked_congr {f g : Nat → Int} (h : ∀ k, 1 ≤ k → k ≤ 14 → f k = g k) :
    (List.range' 1 14).map f = (List.range' 1 14).map g :=
  List.map_congr_left fun k hk => by
    obtain ⟨hlow, hhigh⟩ := List.mem_range'_1.mp hk
    exact h k hlow (by omega)

/-- Two axis sums agree where the pause flag and the shares of the slots 1..14 do. -/
theorem axisSum_congr {s s' : State} {a' : Axis} {smp' : SampleRecord} (hpaused : s'.paused = s.paused)
    (hshare : ∀ k, 1 ≤ k → k ≤ 14 → slotShare c a' smp' (s'.slot k) = slotShare c a smp (s.slot k)) :
    axisSum c a' smp' s' = axisSum c a smp s := by
  unfold axisSum
  rw [hpaused, map_walked_congr hshare]

/-- R147: where every slot of `s` is that of one state, and is not visited in the other, the sums add up. -/
theorem axisSum_add {s s₁ s₂ : State} (hs : s.paused = false) (hs₁ : s₁.paused = false) (hs₂ : s₂.paused = false)
    (hslot : ∀ k, 1 ≤ k → k ≤ 14 → (s.slot k = s₁.slot k ∧ (s₂.slot k).visited = false)
      ∨ (s.slot k = s₂.slot k ∧ (s₁.slot k).visited = false)) :
    axisSum c a smp s = axisSum c a smp s₁ + axisSum c a smp s₂ := by
  rw [axisSum_of_running c a smp hs, axisSum_of_running c a smp hs₁, axisSum_of_running c a smp hs₂,
    ← List.sum_map_add]
  refine congrArg List.sum (map_walked_congr fun k hlow hhigh => ?_)
  rcases hslot k hlow hhigh with ⟨hsame, hother⟩ | ⟨hsame, hother⟩
  · rw [hsame, slotShare_of_not_visited c a smp hother, add_zero]
  · rw [hsame, slotShare_of_not_visited c a smp hother, zero_add]

end

/-! ## The command -/

section
variable (now : Stamp) (smp0 smp1 : SampleRecord)

/-- The answer to a TICK in a state (R142): the output stage of its two axis sums. -/
def tickAnswer (s : State) : Response :=
  .forces (forceWord (outputForce Config.implementation (axisSum Config.implementation .axis0 smp0 s)))
    (forceWord (outputForce Config.implementation (axisSum Config.implementation .axis1 smp1 s)))

/-- R142: TICK completes; it serves the slots 1..14, answers, and changes nothing else. -/
theorem exec_tick (s : State) :
    ∃ t, exec (.tick now smp0 smp1) s = .next t
      ∧ (∀ k, t.slot k = if s.paused = false ∧ 1 ≤ k ∧ k ≤ 14 then (s.slot k).ticked now else s.slot k)
      ∧ t.response = some (tickAnswer smp0 smp1 s) ∧ SameRegisters s t ∧ SamePorts s t := by
  obtain ⟨t, hnext, hslot, hresponse, hcursor, hpool, hpaused, hgain, hload, hpending, hreset⟩ :=
    tickWith_spec Config.implementation now smp0 smp1 s
  exact ⟨t, hnext, hslot, hresponse, ⟨hcursor, hpool, hpaused, hgain, hload⟩, ⟨hpending, hreset⟩⟩

/-- R148: the state that a TICK leaves has the same records after one more at the same clock. -/
theorem exec_tick_twice_slot {s t u : State} (hfirst : exec (.tick now smp0 smp1) s = .next t)
    (hsecond : exec (.tick now smp0 smp1) t = .next u) (k : Nat) : u.slot k = t.slot k := by
  obtain ⟨t', hexec, hslot, -, ⟨-, -, hpaused, -, -⟩, -⟩ := exec_tick now smp0 smp1 s
  cases hfirst.symm.trans hexec
  obtain ⟨u', hexec', hslot', -⟩ := exec_tick now smp0 smp1 t
  cases hsecond.symm.trans hexec'
  rw [hslot' k, hpaused, hslot k]
  split
  · exact Slot.ticked_ticked now _
  · rfl

theorem tickAnswer_congr {s t : State} (hpaused : t.paused = s.paused) (hslot : ∀ k, t.slot k = s.slot k) :
    tickAnswer smp0 smp1 t = tickAnswer smp0 smp1 s := by
  have hsum (a : Axis) (smp : SampleRecord) :
      axisSum Config.implementation a smp t = axisSum Config.implementation a smp s :=
    axisSum_congr _ _ _ hpaused fun k _ _ => by rw [hslot k]
  rw [tickAnswer, hsum, hsum, tickAnswer]

end

/-- Settles O36: the walk of `exec_tick`, R145's test, and R147's table row by row. -/
theorem tickServesVisitedSlots : Obligations.TickServesVisitedSlots := by
  refine ⟨fun now smp0 smp1 s => ?_, Slot.visited_iff, fun c r a smp => ?_⟩
  · obtain ⟨t, hexec, hslot, hresponse, hregisters, hports⟩ := exec_tick now smp0 smp1 s
    refine ⟨t, hexec, fun k => ?_, hresponse, hregisters, hports⟩
    rw [hslot k, Slot.ticked_eq, ← ite_and]
    simp only [and_assoc]
  · have hrow {code : Byte} := contribution_of_effectType c a smp (r := r) (code := code)
    exact ⟨hrow, hrow, hrow, hrow, hrow, hrow, hrow, hrow, hrow, hrow, hrow, contribution_of_no_engine c a smp⟩

/-- Settles O37: the walk is skipped, and both sums are 0. -/
theorem pausedTickIsSilent : Obligations.PausedTickIsSilent := by
  intro now smp0 smp1 s hpaused
  obtain ⟨t, hexec, hslot, hresponse, ⟨hcursor, hpool, hpause, hgain, hload⟩, ⟨hpending, hreset⟩⟩ :=
    exec_tick now smp0 smp1 s
  rw [hexec]
  refine congrArg Host.Outcome.next
    (State.ext_slots (fun k => ?_) hcursor hpool hpause hgain hload hpending hreset ?_)
  · rw [hslot k, if_neg (by simp [hpaused])]
    rfl
  · rw [hresponse, tickAnswer, axisSum_of_paused _ _ _ hpaused, axisSum_of_paused _ _ _ hpaused, outputForce_zero]
    rfl

/-- Settles O38: the output stage is clamped, and an `s16` holds what it gives. -/
theorem tickForcesAreBounded : Obligations.TickForcesAreBounded := by
  intro now smp0 smp1 s
  obtain ⟨t, hexec, -, hresponse, -⟩ := exec_tick now smp0 smp1 s
  refine ⟨t, _, _, hexec, hresponse, ?_⟩
  rw [forceWord_outputForce_toInt, forceWord_outputForce_toInt]
  obtain ⟨hlow0, hhigh0⟩ := outputForce_mem Config.implementation (axisSum Config.implementation .axis0 smp0 s)
  obtain ⟨hlow1, hhigh1⟩ := outputForce_mem Config.implementation (axisSum Config.implementation .axis1 smp1 s)
  exact ⟨hlow0, hhigh0, hlow1, hhigh1, rfl, rfl⟩

/-- Settles O39: each axis sum is the sum of the two states'. -/
theorem tickIsAdditive : Obligations.TickIsAdditive := by
  intro now smp0 smp1 s s₁ s₂ hs hs₁ hs₂ hslot
  obtain ⟨t, hexec, -, hresponse, -⟩ := exec_tick now smp0 smp1 s
  refine ⟨t, hexec, ?_⟩
  rw [hresponse, tickAnswer, axisSum_add _ _ _ hs hs₁ hs₂ hslot, axisSum_add _ _ _ hs hs₁ hs₂ hslot]

/-- Settles O40: slot by slot, the two axes get the same share. -/
theorem waveformsPushBothAxesAlike : Obligations.WaveformsPushBothAxesAlike := by
  intro now smp0 smp1 s htype
  obtain ⟨t, hexec, -, hresponse, -⟩ := exec_tick now smp0 smp1 s
  have haxes : axisSum Config.implementation .axis1 smp1 s = axisSum Config.implementation .axis0 smp0 s :=
    axisSum_congr _ _ _ rfl fun k hlow hhigh => slotShare_of_waveform _ _ _ (htype k hlow hhigh) _ _
  exact ⟨t, _, hexec, by rw [hresponse, tickAnswer, haxes]⟩

/-- Settles O41: the second TICK leaves the records of the first, so the third finds what the second found. -/
theorem repeatedTicksRepeat : Obligations.RepeatedTicksRepeat := by
  intro now smp0 smp1 s
  obtain ⟨t, hfirst, -⟩ := exec_tick now smp0 smp1 s
  obtain ⟨u, hsecond, -, hresponse, ⟨-, -, hpaused, -, -⟩, -⟩ := exec_tick now smp0 smp1 t
  obtain ⟨v, hthird, -, hresponse', ⟨hcursor', hpool', hpaused', hgain', hload'⟩, ⟨hpending', hreset'⟩⟩ :=
    exec_tick now smp0 smp1 u
  have hsame : v = u :=
    State.ext_slots (exec_tick_twice_slot now smp0 smp1 hsecond hthird) hcursor' hpool' hpaused' hgain' hload' hpending'
      hreset' (by
        rw [hresponse', hresponse,
          tickAnswer_congr smp0 smp1 hpaused (exec_tick_twice_slot now smp0 smp1 hfirst hsecond)])
  exact ⟨t, u, hfirst, hsecond, hsame ▸ hthird⟩

end Sys2Proof.Machine
end

section
/-! PROOFS. The two feature-report reads (spec/45_feature_reports.md R153, R154): the bytes of a 16-bit counter as
numbers, and the two records made of them. -/

namespace Sys2Proof

/-! ## The two bytes of a 16-bit field -/

theorem lowByte_eq (v : Half) : lowByte v = BitVec.ofNat 8 (v.toNat % 256) := by
  simp [lowByte, ← BitVec.toNat_inj]

theorem highByte_eq (v : Half) : highByte v = BitVec.ofNat 8 (v.toNat / 256) := by
  simp [highByte, ← BitVec.toNat_inj, Nat.shiftRight_eq_div_pow]

/-- R7: `14 × FOOTPRINT ≤ 65535`, so the pool's full capacity is a 16-bit number and loses nothing in the counter. -/
theorem Config.toNat_poolFull (c : Config) : (BitVec.ofNat 16 c.poolFull).toNat = 14 * c.footprint := by
  have hfootprint : c.footprint ≤ 4681 := c.footprintLessOne.isLt
  exact Nat.mod_eq_of_lt (show 14 * c.footprint < 2 ^ 16 by omega)

end Sys2Proof

namespace Sys2Proof.Machine

/-! ## The records -/

/-- R78: the block load record by its bytes, the pool counter low byte first. -/
theorem blockLoadRecord_eq (c : Config) (b : BlockLoad) (pool : Half) :
    blockLoadRecord c b pool = #v[c.blockLoadReportId, b.index, b.status, BitVec.ofNat 8 (pool.toNat % 256),
      BitVec.ofNat 8 (pool.toNat / 256)] := by
  rw [blockLoadRecord, lowByte_eq, highByte_eq]

/-- R79: the pool record by its bytes, the full capacity low byte first. -/
theorem poolRecord_eq (c : Config) :
    poolRecord c = #v[c.poolReportId, BitVec.ofNat 8 (14 * c.footprint % 256),
      BitVec.ofNat 8 (14 * c.footprint / 256), 14, c.memMgmt] := by
  have hbytes : poolRecord c = #v[c.poolReportId, lowByte (BitVec.ofNat 16 c.poolFull),
      highByte (BitVec.ofNat 16 c.poolFull), 14, c.memMgmt] := rfl
  rw [hbytes, lowByte_eq, highByte_eq, c.toNat_poolFull]

/-! ## The reads -/

theorem exec_getBlockLoad (s : State) :
    exec .getBlockLoad s = answer (.feature (blockLoadRecord Config.implementation s.blockLoad s.pool)) s := rfl

theorem exec_getPool (s : State) : exec .getPool s = answer (.feature (poolRecord Config.implementation)) s := rfl

/-- Settles O32: each read answers its record on the state it finds, and the record is the five bytes. -/
theorem featureReadsReturnTheirRecords : Obligations.FeatureReadsReturnTheirRecords := by
  intro s
  constructor
  · rw [exec_getBlockLoad, blockLoadRecord_eq]
    rfl
  · rw [exec_getPool, poolRecord_eq]
    rfl

end Sys2Proof.Machine
end

section
/-! PROOFS. Every transaction completes and is answered, and the core accepts the next one (spec/60_exceptions.md R156):
what a command leaves on the ports, and how many requests an accepted one leaves pending. -/

namespace Sys2Proof.Machine

/-! ## Commands -/

/-- R59, R156: the outcome is a next state with a response on its port, the request port and the reset input as they
were. -/
def Answers (s : State) (o : Result) : Prop :=
  ∃ t, o = .next t ∧ t.response.isSome = true ∧ SamePorts s t

theorem SamePorts.refl (s : State) : SamePorts s s := ⟨rfl, rfl⟩

theorem answers_answer {s u : State} (h : SamePorts s u) (r : Response) : Answers s (answer r u) :=
  ⟨_, rfl, rfl, h.pending, h.resetInput⟩

theorem updateTarget_samePorts (s : State) (index : Byte) (f : Slot → Slot) : SamePorts s (s.updateTarget index f) :=
  ⟨s.updateTarget_pending index f, s.updateTarget_resetInput index f⟩

theorem setPaused_samePorts (s : State) (v : Bool) : SamePorts s (s.setPaused v) := ⟨rfl, rfl⟩

theorem setDeviceGain_samePorts (s : State) (v : Byte) : SamePorts s (s.setDeviceGain v) := ⟨rfl, rfl⟩

theorem setBlockLoad_samePorts (s : State) (index status : Byte) : SamePorts s (s.setBlockLoad index status) :=
  ⟨rfl, rfl⟩

/-- R152: CREATE answers whether or not a record is handed out. -/
theorem createWith_answers (c : Config) (s : State) : Answers s (createWith c s) := by
  rcases allocate_spec s c with ⟨-, hnone⟩ | ⟨-, t, hsome, -, -, -, -, -, -, -, -, hpending, hreset, -⟩
  · rw [createWith_of_none hnone]
    exact answers_answer (setBlockLoad_samePorts s 0 2) _
  · rw [createWith_of_some hsome]
    exact answers_answer (u := t.setBlockLoad _ 1) ⟨hpending, hreset⟩ _

theorem exec_answers (i : Instr) (s : State) : Answers s (exec i s) := by
  cases meaning i with
  | reads resp hexec =>
    rw [hexec]
    exact answers_answer (.refl s) _
  | updates index f hexec _ _ =>
    rw [hexec]
    exact answers_answer (updateTarget_samePorts s index f) _
  | stops index _ => exact answers_answer (stop_keepsFlagsAndPorts _ index s).ports _
  | stopsAll => exact answers_answer (stopAll_keepsFlagsAndPorts _ s).ports _
  | stopsAllThenStarts index _ now =>
    rw [exec_effectStartSolo]
    exact answers_answer (updateTarget_keepsFlagsAndPorts (stopAll_keepsFlagsAndPorts _ s) index _).ports _
  | frees index => exact answers_answer (free_keepsFlagsAndPorts index s).ports _
  | freesAll hexec =>
    rw [hexec]
    exact answers_answer (freeAll_keepsFlagsAndPorts _ s).ports _
  | pauses => exact answers_answer (setPaused_samePorts s true) _
  | continues => exact answers_answer (setPaused_samePorts s false) _
  | setsDeviceGain gain => exact answers_answer (setDeviceGain_samePorts s gain) _
  | creates => exact createWith_answers _ s
  | ticks now smp0 smp1 =>
    obtain ⟨t, hnext, -, hresponse, -, hports⟩ := exec_tick now smp0 smp1 s
    exact ⟨t, hnext, by rw [hresponse]; rfl, hports⟩

/-! ## The request port -/

/-- R54, R163: where something is pending one request is accepted, and the others stay pending. -/
theorem exists_acceptNext_of_ne_nil {l : List Request} (h : l ≠ []) :
    ∃ r rest, acceptNext l = some (r, rest) ∧ rest.length + 1 = l.length := by
  rcases acceptNext_spec l with ⟨hnil, -⟩ | ⟨r, rest, rfl, -, haccept⟩ | ⟨ticks, r, rest, rfl, -, -, haccept⟩
  · exact absurd hnil h
  · exact ⟨r, rest, haccept, rfl⟩
  · exact ⟨r, ticks ++ rest, haccept, by simp only [List.length_append, List.length_cons]; omega⟩

/-! ## Transactions -/

/-- R59, R60: an accepted request is answered, whether its kind names a command or is reserved. -/
theorem transact_answers {s : State} {r : Request} {rest : List Request}
    (haccept : acceptNext s.pending = some (r, rest)) : Answers (s.setPending rest) (transact s) := by
  rcases hdecode : decode r with e | i
  · rw [transact_of_decode_error haccept hdecode]
    exact answers_answer (.refl _) _
  · rw [transact_of_decode_ok haccept hdecode]
    exact exec_answers i _

/-- Settles O14: a reset event has a next state; with the reset input released, a step idles or is the transaction of
the accepted request. -/
theorem everyTransactionIsAnswered : Obligations.EveryTransactionIsAnswered := by
  intro s
  by_cases hreset : s.resetInput = .released
  · rw [step_of_released hreset]
    by_cases hpending : s.pending = []
    · have hidle : transact s = idle s := transact_of_acceptNext_none (by rw [hpending]; rfl)
      exact ⟨_, hidle, fun _ hne => absurd hpending hne, fun _ _ => rfl⟩
    · obtain ⟨r, rest, haccept, hlength⟩ := exists_acceptNext_of_ne_nil hpending
      obtain ⟨t, hnext, hresponse, hkept, hinput⟩ := transact_answers haccept
      have hone : t.pending.length + 1 = s.pending.length := by rw [hkept]; exact hlength
      exact ⟨t, hnext, fun _ _ => ⟨hresponse, hone, hinput.trans hreset⟩, fun _ hnil => absurd hnil hpending⟩
  · obtain ⟨p, hp⟩ := step_of_reset_event hreset
    exact ⟨_, hp, fun hreleased => absurd hreleased hreset, fun hreleased => absurd hreleased hreset⟩

end Sys2Proof.Machine
end

section
/-! PROOFS. The reset event (spec/70_reset_and_hazards.md R169): which reset event a step takes for each reading of the
reset input, and what a reset event leaves pending. -/

namespace Sys2Proof.Machine

/-! ## The step under reset -/

/-- R169: with no transaction in progress the reset event abandons none. -/
theorem step_of_betweenTransactions {s : State} (hreset : s.resetInput = .betweenTransactions) :
    step s = .next (takeReset s false) := by
  unfold step
  rw [hreset]

/-- R169: during a transaction the reset event abandons it. -/
theorem step_of_duringTransaction {s : State} (hreset : s.resetInput = .duringTransaction) :
    step s = .next (takeReset s true) := by
  unfold step
  rw [hreset]

/-! ## What stays pending -/

/-- Between transactions every request stays pending (notes/assumptions/3.md). -/
theorem takeReset_betweenTransactions (s : State) : takeReset s false = State.reset.setPending s.pending := rfl

/-- The abandoned transaction is that of the request the core would accept next (notes/assumptions/3.md). -/
theorem takeReset_of_acceptNext_some {s : State} {r : Request} {rest : List Request}
    (haccept : acceptNext s.pending = some (r, rest)) : takeReset s true = State.reset.setPending rest := by
  simp only [takeReset, haccept, if_true]

/-- With nothing pending there is no transaction to abandon, and nothing is left pending. -/
theorem takeReset_of_pending_nil {s : State} (hpending : s.pending = []) : takeReset s true = State.reset := by
  have haccept : acceptNext s.pending = none := by rw [hpending]; rfl
  simp only [takeReset, haccept, if_true]
  rfl

/-- Settles O13, by the reading of the reset input and, during a transaction, by whether a request is pending. -/
theorem resetEvent : Obligations.ResetEvent := by
  intro s
  refine ⟨fun hreset => ?_, fun r rest hreset haccept => ?_, fun hreset hpending => ?_⟩
  · rw [step_of_betweenTransactions hreset, takeReset_betweenTransactions]
    rfl
  · rw [step_of_duringTransaction hreset, takeReset_of_acceptNext_some haccept]
    rfl
  · rw [step_of_duringTransaction hreset, takeReset_of_pending_nil hpending]

end Sys2Proof.Machine
end
